-- ==== Sys2Proof/Word.lean ====
section
/-!
DEFINITION. The plain word types of the Cendro DG-8 model.

The manual gives quantities as integers ("Quantities are integers", 00_scope.md), so a quantity is a `Nat`
(an `Int` where it may fall below 0). A bit vector stands only where the manual speaks of bytes of the host
link, of characters, or of masks.
-/

namespace Sys2Proof

/-- One byte of the host link, of a scanner line or of the image store. -/
abbrev Byte := BitVec 8

/-- The 16-bit check word of a frame (R213). -/
abbrev Crc := BitVec 16

end Sys2Proof
end

