-- ==== Sys2Proof/Config.lean ====
section
/-!
DEFINITION. What one DG-8 fixes: the capacities of R223, the fixed measures the chapters state, and the two
values of the model that are free (values the manual does not state).
-/

namespace Sys2Proof.Config

/-- Order slots (R1, R223). -/
abbrev orderSlots : Nat := 128
/-- Unit records of the pool (R3, R223). -/
abbrev unitRecords : Nat := 1024
/-- Image slots (R27, R223). -/
abbrev imageSlots : Nat := 64
/-- Pages of the image store (R24, R223). -/
abbrev storePages : Nat := 8192
/-- Bytes of one store page, 64 KiB (R24). -/
abbrev pageBytes : Nat := 65536
/-- Garment records (R79, R223). -/
abbrev garmentRecords : Nat := 32
/-- The most garments the tunnel list holds (R145, R223). -/
abbrev tunnelCapacity : Nat := 12
/-- The most garments the recure list holds (R182, R223). -/
abbrev recureCapacity : Nat := 8
/-- Order bins (R187, R223). -/
abbrev binCount : Nat := 24
/-- Fabric profiles (R50, R223). -/
abbrev profileCount : Nat := 16
/-- Alarm instances (R194, R223). -/
abbrev alarmInstances : Nat := 22
/-- References the notice list can hold (R219, R223). -/
abbrev noticeCapacity : Nat := 271
/-- The largest request body in bytes (R214, R223). -/
abbrev largestBody : Nat := 60000

/-- Bytes of a full bulk packet (log entry 36; 00_scope.md calls the link USB high speed). -/
abbrev bulkPacket : Nat := 512

/-- Dots across the platen field (00_scope.md, Units). -/
abbrev fieldDots : Nat := 4800
/-- Lines along the platen field (00_scope.md, Units). -/
abbrev fieldLines : Nat := 6240
/-- Encoder counts of a full stroke (R107). -/
abbrev strokeCounts : Nat := 28800
/-- Encoder counts between scale marks (R107). -/
abbrev markCounts : Nat := 1920
/-- The encoder count of platen line 0 (R107). -/
abbrev lineZeroCount : Nat := 3840
/-- Belt encoder counts from the entry to the exit window, 3,000 mm (R144). -/
abbrev exitCounts : Nat := 30000
/-- Belt encoder counts from the entry to the diverter, 3,300 mm (R144). -/
abbrev diverterCounts : Nat := 33000
/-- Belt encoder counts of the diverter hold (R180). -/
abbrev holdCounts : Nat := 2000
/-- Least distance between the last member and the entry, in mm (R163). -/
abbrev spacingMm : Nat := 250

/-- FREE VALUE (log entry 12): the 16 bits STATUS_GET carries for a shuttle position outside 0..65,535. R224 and R227
carry the position as an unsigned number of 2 bytes, and R107 lets backward counts bring it below 0; the manual states
no encoding there. It has no body, so nothing can be proved of it. -/
opaque unstatedPosition : Int → BitVec 16

/-- FREE VALUE (log entry 43): the 4 image id bytes of the garment body of a serial whose image id is absent. R232
carries a presence flag and the id, and states no id for the flag 0. It has no body, so nothing can be proved of it. -/
opaque absentImageId : Nat → BitVec 32

end Sys2Proof.Config
end

