-- ==== Sys2Proof/Syntax.lean ====
section
/-!
DEFINITION. The commands of the DG-8: one constructor of `Instr` for each row of spec/opcode_table.json.

A host request carries the tag of its frame (R213) and the fields of its body (R227 to R232) as the wire holds
them: unsigned numbers, so an operand may lie outside the range its owner accepts. A field event carries what
the field line shows at the event. Expiries and reports carry nothing.
-/

namespace Sys2Proof

/-- The result of one page read of the image store (R38, R45, R46). -/
inductive ReadResult where
  | clean
  | corrected
  | uncorrectable
deriving DecidableEq, Repr

/-- The three scanner lines (R194, R209). -/
inductive ScanLine where
  | load
  | entry
  | exit
deriving DecidableEq, Repr

/-- What a temperature converter delivers at a sample: its raw reading, and whether it reports a fault
(R100, R146). -/
structure Reading where
  raw : Nat
  fault : Bool
deriving DecidableEq, Repr

/-- One entry of a CONFIG_SET body (R230). -/
structure SettingEntry where
  code : Nat
  index : Nat
  value : Nat
deriving DecidableEq, Repr

/-- The 18 fields of a profile as PROFILE_SET carries them (R50, R227). -/
structure ProfileBody where
  basis : Nat
  pFloor : Nat
  tBase : Nat
  tGain : Nat
  tMin : Nat
  tMax : Nat
  dwell : Nat
  tfMin : Nat
  tfMax : Nat
  lineLimit : Nat
  dotLimit : Nat
  markOn : Nat
  markX : Nat
  markY : Nat
  tTh : Nat
  dBase : Nat
  kInk : Nat
  dMax : Nat
deriving DecidableEq, Repr

/-- The body of CURE_SET (R60, R227). -/
structure CureBody where
  tSet1 : Nat
  tSet2 : Nat
  tSet3 : Nat
  tTrip : Nat
  band : Nat
  samples : Nat
  gain : Nat
  dMin : Nat
  dMax : Nat
  sMin : Nat
  sMax : Nat
deriving DecidableEq, Repr

/-- The body of SPIT_SET: the period, the five channel masks and the five spit counts (R62, R227). -/
structure SpitBody where
  period : Nat
  masks : List Nat
  counts : List Nat
deriving DecidableEq, Repr

/-- One entry of a NOZZLE_SET body (R126, R228). -/
structure NozzleEntry where
  channel : Nat
  row : Nat
  first : Nat
  count : Nat
  state : Nat
deriving DecidableEq, Repr

/-- One item of an ORDER_ADD body (R4, R231). -/
structure ItemBody where
  sku : Nat
  image : Nat
  profile : Nat
  quantity : Nat
deriving DecidableEq, Repr

/-- The commands: the rows of spec/opcode_table.json, in its order. -/
inductive Instr where
  /-- POWER_ON (R211): the levels of e-stop (active) and of the guards (bit g − 1 high) at the first reading. -/
  | powerOn (estop : Bool) (guards : BitVec 4)
  /-- IDENT (R223). -/
  | ident (tag : Byte)
  /-- STATUS_GET (R224). -/
  | statusGet (tag : Byte)
  /-- RESET (R225). -/
  | reset (tag : Byte)
  /-- CONFIG_SET (R57), with the level of KEY at its taking (R52). -/
  | configSet (tag : Byte) (key : Bool) (entries : List SettingEntry)
  /-- CONFIG_GET (R63). -/
  | configGet (tag : Byte)
  /-- PROFILE_SET (R51), with the level of KEY at its taking (R52). -/
  | profileSet (tag : Byte) (key : Bool) (id : Nat) (body : ProfileBody)
  /-- PROFILE_GET (R54). -/
  | profileGet (tag : Byte) (id : Nat)
  /-- CURE_SET (R60). -/
  | cureSet (tag : Byte) (body : CureBody)
  /-- SPIT_SET (R62). -/
  | spitSet (tag : Byte) (body : SpitBody)
  /-- NOZZLE_SET (R126). -/
  | nozzleSet (tag : Byte) (entries : List NozzleEntry)
  /-- NOZZLE_GET (R127). -/
  | nozzleGet (tag : Byte) (channel : Nat) (row : Nat)
  /-- IMAGE_OPEN (R29). -/
  | imageOpen (tag : Byte) (id : Nat) (w : Nat) (h : Nat) (x0 : Nat) (y0 : Nat) (channels : Nat) (rush : Nat)
  /-- BAND (R33). -/
  | band (tag : Byte) (channel : Nat) (index : Nat) (encoding : Nat) (data : List Byte)
  /-- IMAGE_CLOSE (R37). -/
  | imageClose (tag : Byte)
  /-- IMAGE_ABORT (R36). -/
  | imageAbort (tag : Byte)
  /-- IMAGE_DELETE (R42). -/
  | imageDelete (tag : Byte) (id : Nat)
  /-- IMAGE_GET (R48). -/
  | imageGet (tag : Byte) (id : Nat)
  /-- ORDER_ADD (R4). -/
  | orderAdd (tag : Byte) (id : Nat) (priority : Nat) (items : List ItemBody)
  /-- ORDER_RUSH (R11). -/
  | orderRush (tag : Byte) (id : Nat)
  /-- ORDER_CANCEL (R21). -/
  | orderCancel (tag : Byte) (id : Nat)
  /-- ORDER_GET (R23). -/
  | orderGet (tag : Byte) (id : Nat)
  /-- GARMENT_GET (R88). -/
  | garmentGet (tag : Byte) (serial : Nat)
  /-- RECURE_DROP (R186). -/
  | recureDrop (tag : Byte) (serial : Nat)
  /-- BIN_CLEAR (R190). -/
  | binClear (tag : Byte) (bin : Nat) (force : Nat)
  /-- FLUID_FILLED (R95). -/
  | fluidFilled (tag : Byte)
  /-- LINE_START (R71). -/
  | lineStart (tag : Byte)
  /-- LINE_STOP (R72). -/
  | lineStop (tag : Byte)
  /-- LINE_HALT (R73). -/
  | lineHalt (tag : Byte)
  /-- ALARM_GET (R203). -/
  | alarmGet (tag : Byte) (kind : Nat) (number : Nat)
  /-- ALARM_ACK (R199). -/
  | alarmAck (tag : Byte) (kind : Nat) (number : Nat) (count : Nat)
  /-- DRILL_STEP (R207). -/
  | drillStep (tag : Byte)
  /-- FRAME_REJECTED (R215): the kind, tag, body and CRC of the complete frame as received. -/
  | frameRejected (kind : Byte) (tag : Byte) (body : List Byte) (crc : Crc)
  /-- IMPLAUSIBLE_HEADER (R214): the four header bytes as received. -/
  | implausibleHeader (kind : Byte) (tag : Byte) (lenHigh : Byte) (lenLow : Byte)
  /-- REPLY_READ (R218). -/
  | replyRead
  /-- NOTICE_SEND_START (R220). -/
  | noticeSendStart
  /-- NOTICE_SENT (R220). -/
  | noticeSent
  /-- USB_BUS_RESET: a bus reset or a deconfiguration (R222). -/
  | usbBusReset
  /-- USB_CONFIGURED (R212). -/
  | usbConfigured
  /-- LOAD_SCAN (R12): the CR that ends the record in the LOAD line's buffer (R209, R210). -/
  | loadScan
  /-- ENTRY_RECORD (R183): the CR that ends the record in the ENTRY line's buffer. -/
  | entryRecord
  /-- EXIT_RECORD (R172): the CR that ends the record in the EXIT line's buffer. -/
  | exitRecord
  /-- SCANNER_FRAMING_FAULT (R209). -/
  | scannerFramingFault (line : ScanLine)
  /-- SCANNER_OVERLONG (R209): the character that comes with the buffer at 32. -/
  | scannerOverlong (line : ScanLine) (char : Byte)
  /-- FOOTSWITCH_PRESS (R76). -/
  | footswitchPress
  /-- SKIP_PRESS (R77). -/
  | skipPress
  /-- ESTOP_CHANGE (R204): the input after the change. -/
  | estopChange (active : Bool)
  /-- GUARD_CHANGE (R205): guard 1..4 and its input after the change. -/
  | guardChange (guard : Nat) (high : Bool)
  /-- INDEX_START (R67). -/
  | indexStart
  /-- INDEX_SENSOR (R68). -/
  | indexSensor
  /-- INDEX_TIMEOUT (R70). -/
  | indexTimeout
  /-- TRANSFER_COMPLETE (R85). -/
  | transferComplete
  /-- TRAVERSE_START (R96). -/
  | traverseStart
  /-- VALVE_DELAY_EXPIRY (R89): the lane whose delay expires. -/
  | valveDelayExpiry (lane : Nat)
  /-- VALVE_CLOSE_EXPIRY (R96): the lane whose cell time expires. -/
  | valveCloseExpiry (lane : Nat)
  /-- ROW_WINDOW_END (R96). -/
  | rowWindowEnd
  /-- TRAVERSE_END (R97). -/
  | traverseEnd
  /-- BAR_RETURN_END (R96). -/
  | barReturnEnd
  /-- FLASH_SAMPLE (R100): what the flash converter delivers. -/
  | flashSample (reading : Reading)
  /-- FLASH_WAIT_EXPIRY (R102). -/
  | flashWaitExpiry
  /-- FLASH_DWELL_EXPIRY (R104). -/
  | flashDwellExpiry
  /-- PRINT_START (R110). -/
  | printStart
  /-- SPIT_COMPLETE (R140). -/
  | spitComplete
  /-- SHUTTLE_ENCODER_COUNT (R107): the direction of the count, and the results, in order, of the page reads
  that the event's line events make (R129). -/
  | shuttleEncoderCount (forward : Bool) (reads : List ReadResult)
  /-- SCALE_MARK (R112), with the results of the page reads that its snap's line events make (R116, R129). -/
  | scaleMark (reads : List ReadResult)
  /-- HOME_SENSOR (R108). -/
  | homeSensor
  /-- NO_SIGNAL_EXPIRY (R120). -/
  | noSignalExpiry
  /-- SCAN_START (R38). -/
  | scanStart
  /-- SCAN_PAGE_READ (R38): the result of the page read. -/
  | scanPageRead (result : ReadResult)
  /-- TUNNEL_SAMPLE (R146): what the converters of Z1, Z2 and Z3 deliver. -/
  | tunnelSample (z1 : Reading) (z2 : Reading) (z3 : Reading)
  /-- BELT_ENCODER_COUNT (R144). -/
  | beltEncoderCount
  /-- BELT_STALL_EXPIRY (R158). -/
  | beltStallExpiry
  /-- DIVERTER_HOLD_END (R180). -/
  | diverterHoldEnd
  /-- SCANNER_CHARACTER (R209). -/
  | scannerCharacter (line : ScanLine) (char : Byte)
deriving DecidableEq, Repr

end Sys2Proof
end

