-- ==== Sys2Proof/WellFormed.lean ====
section
/-!
DEFINITION. When a command is one that the link or a field line can deliver: every number fits the bytes that
carry it (R227 to R232), every list fits its count field and the largest body (R214), every lane, guard and
converter reading lies where the hardware has one.
-/

namespace Sys2Proof

/-- `n` fits in `width` bytes (R227). -/
def fits (width n : Nat) : Bool := n < 256 ^ width

/-- An entry of R230: one byte, one byte, four bytes. -/
def SettingEntry.wf (e : SettingEntry) : Bool := fits 1 e.code && fits 1 e.index && fits 4 e.value

/-- The 18 fields of R227 in 1, 2, 2, 2, 2, 2, 1, 2, 2, 2, 4, 1, 2, 2, 2, 4, 1 and 4 bytes. -/
def ProfileBody.wf (p : ProfileBody) : Bool :=
  fits 1 p.basis && fits 2 p.pFloor && fits 2 p.tBase && fits 2 p.tGain && fits 2 p.tMin && fits 2 p.tMax &&
  fits 1 p.dwell && fits 2 p.tfMin && fits 2 p.tfMax && fits 2 p.lineLimit && fits 4 p.dotLimit &&
  fits 1 p.markOn && fits 2 p.markX && fits 2 p.markY && fits 2 p.tTh && fits 4 p.dBase && fits 1 p.kInk &&
  fits 4 p.dMax

/-- The 20 bytes of CURE_SET (R227). -/
def CureBody.wf (c : CureBody) : Bool :=
  fits 2 c.tSet1 && fits 2 c.tSet2 && fits 2 c.tSet3 && fits 2 c.tTrip && fits 2 c.band && fits 1 c.samples &&
  fits 1 c.gain && fits 2 c.dMin && fits 2 c.dMax && fits 2 c.sMin && fits 2 c.sMax

/-- The 16 bytes of SPIT_SET: a period, five masks of 2 bytes, five counts (R227). -/
def SpitBody.wf (b : SpitBody) : Bool :=
  fits 1 b.period && (b.masks.length == 5) && (b.counts.length == 5) && b.masks.all (fits 2) && b.counts.all (fits 1)

/-- An entry of NOZZLE_SET: 1, 1, 2, 2 and 1 bytes (R228). -/
def NozzleEntry.wf (e : NozzleEntry) : Bool :=
  fits 1 e.channel && fits 1 e.row && fits 2 e.first && fits 2 e.count && fits 1 e.state

/-- An item of ORDER_ADD: 8, 4, 1 and 1 bytes (R231). -/
def ItemBody.wf (i : ItemBody) : Bool := fits 8 i.sku && fits 4 i.image && fits 1 i.profile && fits 1 i.quantity

/-- A reading fits the 2 bytes that STATUS_GET carries it in (R224, R227). -/
def Reading.wf (r : Reading) : Bool := fits 2 r.raw

/-- When a command is one that the block's surroundings can deliver. -/
def Instr.wf : Instr → Bool
  | .powerOn _ _ => true
  | .ident _ => true
  | .statusGet _ => true
  | .reset _ => true
  | .configSet _ _ es => fits 1 es.length && es.all SettingEntry.wf
  | .configGet _ => true
  | .profileSet _ _ id b => fits 1 id && b.wf
  | .profileGet _ id => fits 1 id
  | .cureSet _ b => b.wf
  | .spitSet _ b => b.wf
  | .nozzleSet _ es => (2 + 7 * es.length ≤ Config.largestBody) && es.all NozzleEntry.wf
  | .nozzleGet _ c r => fits 1 c && fits 1 r
  | .imageOpen _ id w h x y c r => fits 4 id && fits 2 w && fits 2 h && fits 2 x && fits 2 y && fits 1 c && fits 1 r
  | .band _ c b e d => fits 1 c && fits 1 b && fits 1 e && (3 + d.length ≤ Config.largestBody)
  | .imageClose _ => true
  | .imageAbort _ => true
  | .imageDelete _ id => fits 4 id
  | .imageGet _ id => fits 4 id
  | .orderAdd _ id p is => fits 4 id && fits 1 p && fits 1 is.length && is.all ItemBody.wf
  | .orderRush _ id => fits 4 id
  | .orderCancel _ id => fits 4 id
  | .orderGet _ id => fits 4 id
  | .garmentGet _ n => fits 2 n
  | .recureDrop _ n => fits 2 n
  | .binClear _ b f => fits 1 b && fits 1 f
  | .fluidFilled _ => true
  | .lineStart _ => true
  | .lineStop _ => true
  | .lineHalt _ => true
  | .alarmGet _ k n => fits 1 k && fits 1 n
  | .alarmAck _ k n c => fits 1 k && fits 1 n && fits 1 c
  | .drillStep _ => true
  | .frameRejected _ _ b _ => b.length ≤ Config.largestBody
  | .implausibleHeader k _ hi lo => !(1 ≤ k.toNat && k.toNat ≤ 0x5F && hi.toNat * 256 + lo.toNat ≤ Config.largestBody)
  | .replyRead => true
  | .noticeSendStart => true
  | .noticeSent => true
  | .usbBusReset => true
  | .usbConfigured => true
  | .loadScan => true
  | .entryRecord => true
  | .exitRecord => true
  | .scannerFramingFault _ => true
  | .scannerOverlong _ _ => true
  | .footswitchPress => true
  | .skipPress => true
  | .estopChange _ => true
  | .guardChange g _ => 1 ≤ g && g ≤ 4
  | .indexStart => true
  | .indexSensor => true
  | .indexTimeout => true
  | .transferComplete => true
  | .traverseStart => true
  | .valveDelayExpiry l => l < 8
  | .valveCloseExpiry l => l < 8
  | .rowWindowEnd => true
  | .traverseEnd => true
  | .barReturnEnd => true
  | .flashSample r => r.wf
  | .flashWaitExpiry => true
  | .flashDwellExpiry => true
  | .printStart => true
  | .spitComplete => true
  | .shuttleEncoderCount _ _ => true
  | .scaleMark _ => true
  | .homeSensor => true
  | .noSignalExpiry => true
  | .scanStart => true
  | .scanPageRead _ => true
  | .tunnelSample a b c => a.wf && b.wf && c.wf
  | .beltEncoderCount => true
  | .beltStallExpiry => true
  | .diverterHoldEnd => true
  | .scannerCharacter _ _ => true

end Sys2Proof
end

