-- ==== Sys2Proof/Decode.lean ====
section
/-!
DEFINITION. The command that a word of the opcode table spells. No row of spec/opcode_table.json gives bits
(its "fields" lists are empty and it has no "fixed"): a request of this block is a framed message of the host
link, decoded in Machine/Frames.lean (R213 to R215, R227 to R231), and the other rows are events of field
lines and timers. So no word spells a command.
-/

namespace Sys2Proof

/-- No row of the table has bits: no word spells a command. -/
def decodeTableWord (_nbits _w : Nat) : Option Instr := none

end Sys2Proof
end

