-- ==== Sys2Proof/Machine/State.lean ====
section
/-!
DEFINITION. Everything the manual gives the DG-8 to keep, as plain data, block by block in the order of the
block overview (00_scope.md), and the machine right after power-on.

Numbers are `Nat`; absent things are `Option`; tables with a key are lists of (key, record) in rising key
order (`Machine/Ops.lean` has their operations). A timer is `Option Nat`: the clock at which it was last
started or restarted, `none` while it is stopped. The clock counts microseconds (log entry 2).
-/

namespace Sys2Proof.Machine

/-! ## Line Link (LNK) -/

/-- The receive parser (R214): HEADER and BODY hold the bytes read so far. -/
inductive Parser where
  | hunt
  | sync
  | header (got : List Byte)
  | body (kind : Byte) (tag : Byte) (length : Nat) (got : List Byte)
deriving DecidableEq, Repr

/-- The transmitter (R218). -/
inductive Transmitter where
  | idle
  | sendingReply
  | sendingNotice
deriving DecidableEq, Repr

/-- The statuses of R217. -/
inductive Status where
  | ok | clamped | badCrc | badLength | unknownKind | range | state | notOpen | full | notFound | exists_
  | inUse | busy | locked | stale | badData
deriving DecidableEq, Repr

/-- Bytes of the host's stream that the pipe holds back (R212), as one command brought them; `key` is the level of KEY
that came with a request that reads it (R52, log entries 6 and 10). -/
structure Chunk where
  bytes : List Byte
  key : Option Bool
deriving DecidableEq, Repr

/-- A frame the part sends: kind, tag and body (R213); sync, length and CRC follow from these. -/
structure Frame where
  kind : Byte
  tag : Byte
  body : List Byte
deriving DecidableEq, Repr

/-- A reference of the notice list (R219). -/
inductive Ref where
  | order (slot : Nat)
  | image (slot : Nat)
  | garment (serial : Nat)
  | bin (number : Nat)
  | alarm (index : Nat)
  | line
deriving DecidableEq, Repr

/-- The notice frame being sent (R220). `final` says that the object was withdrawn, removed or SORTED when the frame was
built and has not been dropped by a RESET since: its sending report then frees the object. -/
structure Sending where
  ref : Ref
  final : Bool
  frame : Frame
deriving DecidableEq, Repr

structure Lnk where
  /-- The device function is configured by the host (R212). -/
  configured : Bool
  /-- The host's bytes that the part has not read yet, oldest first (R212). -/
  pipe : List Chunk
  parser : Parser
  /-- The reply slot (R212). -/
  reply : Option Frame
  tx : Transmitter
  sending : Option Sending
  /-- The notice list, head first (R219). -/
  notices : List Ref
deriving DecidableEq, Repr

/-! ## Order Table (ORD) -/

inductive Priority where
  | normal | rush
deriving DecidableEq, Repr

inductive OrderState where
  | open_ | complete | failed | cancelling
deriving DecidableEq, Repr

/-- The standing of a unit in the pick queue (R2). -/
inductive UnitClass where
  | reprint | rush | normal
deriving DecidableEq, Repr

inductive UnitState where
  | waitImage | queued | inLine | done | failed
deriving DecidableEq, Repr

/-- The five unit counts of an order (R1). -/
structure UnitCounts where
  waitImage : Nat
  queued : Nat
  inLine : Nat
  done : Nat
  failed : Nat
deriving DecidableEq, Repr

/-- An item record (R2). Its unit list is the unit records that name the order's slot and this item. -/
structure Item where
  sku : Nat
  image : Nat
  profile : Nat
  quantity : Nat
  reprints : Nat
deriving DecidableEq, Repr

/-- An order record (R1). -/
structure Order where
  id : Nat
  priority : Priority
  state : OrderState
  items : List Item
  bin : Option Nat
  split : Bool
  counts : UnitCounts
  withdrawn : Bool
deriving DecidableEq, Repr

/-- A unit record (R2); its sequence number is its key in the unit pool. -/
structure UnitRec where
  slot : Nat
  item : Nat
  index : Nat
  cls : UnitClass
  state : UnitState
deriving DecidableEq, Repr

/-- A place of the pick queue: the unit's class and sequence number (R6). -/
structure QueueEntry where
  cls : UnitClass
  seq : Nat
deriving DecidableEq, Repr

structure Ord where
  /-- The order table, by slot 0..127 (R1). -/
  orders : List (Nat × Order)
  /-- The unit records in use, by sequence number (R3). -/
  units : List (Nat × UnitRec)
  /-- The pick queue, front first (R6). -/
  queue : List QueueEntry
  /-- The sequence counter: the last sequence number given (R3). -/
  seq : Nat
deriving DecidableEq, Repr

/-! ## Image Store (IMS) -/

inductive ImageState where
  | open_ | closing | ready | damaged
deriving DecidableEq, Repr

/-- An entry of the band-plane list (R28). -/
inductive Plane where
  | page (n : Nat) (sent : Bool)
  | blank
  | lost
deriving DecidableEq, Repr

/-- White and colour units of one spray cell (R40). -/
structure Cell where
  white : Nat
  colour : Nat
deriving DecidableEq, Repr

/-- The coverage record (R40): units of W, C, M, Y, K, and the 104 cells, lane-major. The total units and ink_k are
computed from the channel units. -/
structure Coverage where
  units : List Nat
  cells : List Cell
deriving DecidableEq, Repr

/-- An image record (R27). `channels` holds bit c for channel c of W, C, M, Y, K. -/
structure Image where
  id : Nat
  w : Nat
  h : Nat
  x0 : Nat
  y0 : Nat
  channels : BitVec 5
  rush : Bool
  state : ImageState
  planes : List Plane
  coverage : Option Coverage
  queuedRefs : Nat
  garmentRefs : Nat
  printActive : Bool
  removed : Bool
deriving DecidableEq, Repr

/-- A coverage scan in progress (R38): the image's slot, the entry being read, the sums so far, and the mark for
DAMAGED. -/
structure Scan where
  slot : Nat
  entry : Nat
  sums : Coverage
  bad : Bool
deriving DecidableEq, Repr

structure Ims where
  /-- The image table, by slot 0..63 (R27). -/
  images : List (Nat × Image)
  /-- The scan queue of image slots, front first (R37). -/
  scanQueue : List Nat
  scan : Option Scan
  /-- The retired set, ascending (R25). -/
  retired : List Nat
  /-- The corrected-error count, 0..65,535 (R45). -/
  corrected : Nat
  /-- The bytes of the store: page n holds addresses 65,536 n to 65,536 n + 65,535 (R24). -/
  store : List Host.Cell
deriving DecidableEq, Repr

/-! ## Profiles and Settings (PRF) -/

inductive Basis where
  | none | white | all
deriving DecidableEq, Repr

/-- A fabric profile (R50). -/
structure Profile where
  basis : Basis
  pFloor : Nat
  tBase : Nat
  tGain : Nat
  tMin : Nat
  tMax : Nat
  dwell : Nat
  tfMin : Nat
  tfMax : Nat
  lineLimit : Nat
  dotLimit : Nat
  markOn : Bool
  markX : Nat
  markY : Nat
  tTh : Nat
  dBase : Nat
  kInk : Nat
  dMax : Nat
deriving DecidableEq, Repr

inductive LossRule where
  | twoOfFour | twoOfFive
deriving DecidableEq, Repr

/-- The reserve fraction (R25, R56). -/
inductive Reserve where
  | zero | sixteenth | eighth | quarter | half
deriving DecidableEq, Repr

inductive Sense where
  | edge | edgeLevel
deriving DecidableEq, Repr

/-- The line settings (R56). `exempt` holds bit m for module m; `guardMask` holds bit g − 1 for guard g; `senses` is by
alarm kind 1..14 less one; `masks` is by alarm instance index. -/
structure LineSettings where
  lineId : Nat
  reprintLimit : Nat
  recureLimit : Nat
  reserve : Reserve
  lossRule : LossRule
  markTol : Nat
  autoResync : Bool
  shuttleSpeed : Nat
  tickle : Nat
  exempt : BitVec 120
  barSpeed : Nat
  laneMult : Nat
  laneDelays : List Nat
  flow : Nat
  tankCap : Nat
  tankReserve : Nat
  flashWait : Nat
  bins : Nat
  guardMask : BitVec 4
  senses : List Sense
  masks : List Bool
  lock : Bool
deriving DecidableEq, Repr

/-- The cure settings (R60). -/
structure CureSettings where
  tSet : List Nat
  tTrip : Nat
  band : Nat
  samples : Nat
  gain : Nat
  dMin : Nat
  dMax : Nat
  sMin : Nat
  sMax : Nat
deriving DecidableEq, Repr

/-- The spit settings (R62): masks hold bit p for position p. -/
structure SpitSettings where
  period : Nat
  masks : List (BitVec 16)
  counts : List Nat
deriving DecidableEq, Repr

structure Prf where
  profiles : List Profile
  line : LineSettings
  cure : CureSettings
  spit : SpitSettings
deriving DecidableEq, Repr

/-! ## Garment records -/

inductive Stage where
  | bound | loaded | pretreated | flashed | printed | atUnload | inTunnel | inExit | recureWait | sorted
deriving DecidableEq, Repr

inductive Location where
  | absent
  | platen (number : Nat)
  | belt (mm : Nat)
  | recure
deriving DecidableEq, Repr

inductive Defect where
  | pretreatAborted | printAborted | imageGone | storeEcc | linesLost | lostDots | missing
deriving DecidableEq, Repr

inductive Warning where
  | underdried | heavy | cureRange | noBin
deriving DecidableEq, Repr

inductive Verification where
  | verified | unverified | missing
deriving DecidableEq, Repr

/-- The outcome of a garment (R79, R171). -/
inductive CureOutcome where
  | pass | undercured | scorched | cancelled | dropped
deriving DecidableEq, Repr

/-- A destination of the diverter (R79, R180). -/
inductive Route where
  | bin (number : Nat)
  | reject | recure | manual | single
deriving DecidableEq, Repr

inductive Framer where
  | acquire | sync | los
deriving DecidableEq, Repr

/-- A stroke record (R119). -/
structure StrokeRec where
  number : Nat
  first : Nat
  last : Nat
  framing : Nat
  skipped : Nat
  blanked : Nat
  lostDots : Nat
  tickles : Nat
  framer : Framer
  aborted : Bool
deriving DecidableEq, Repr

/-- A garment record (R79); its serial is its key in the garment table. -/
structure Garment where
  order : Nat
  item : Nat
  index : Nat
  sku : Nat
  image : Option Nat
  profile : Profile
  stage : Stage
  location : Location
  defects : List Defect
  warnings : List Warning
  dose : Nat
  dwell : Nat
  strokes : List StrokeRec
  d : Nat
  dReq : Nat
  dMax : Nat
  recures : Nat
  verification : Option Verification
  outcome : Option CureOutcome
  route : Option Route
deriving DecidableEq, Repr

/-! ## Carousel Controller (CAR) -/

inductive Contents where
  | empty
  | unknown
  | garment (serial : Nat)
deriving DecidableEq, Repr

/-- An entry of the platen table (R64): the platen at a position and its contents. -/
structure Platen where
  number : Nat
  contents : Contents
deriving DecidableEq, Repr

inductive Station where
  | load | pretreat | flash | print | unload
deriving DecidableEq, Repr

inductive Hold where
  | none | fluidLow | preheat | flashHot | encoder | tunnelFull | spacing | cureWait
deriving DecidableEq, Repr

/-- A station's state (`working`, or RELEASED) and its hold reason (R65). -/
structure StationRec where
  working : Bool
  hold : Hold
deriving DecidableEq, Repr

inductive IndexState where
  | none | moving | paused
deriving DecidableEq, Repr

inductive LineState where
  | idle | running | draining | stopped | halted
deriving DecidableEq, Repr

inductive Transfer where
  | none | running | stopped
deriving DecidableEq, Repr

inductive LoadLamp where
  | off | confirm | ready | bound | refused
deriving DecidableEq, Repr

inductive ScanResult where
  | bound | badSku | platenBusy | tableFull | noDemand
deriving DecidableEq, Repr

structure Car where
  /-- The platen table, by carousel position 0..7 (R64). -/
  platens : List Platen
  load : StationRec
  pretreat : StationRec
  flash : StationRec
  print : StationRec
  unload : StationRec
  index : IndexState
  /-- Index run time gathered before the motor last started, in µs (R68). -/
  indexRun : Nat
  /-- The clock at which the index motor last started. -/
  indexFrom : Nat
  line : LineState
  transfer : Transfer
  /-- The REFUSED mark of the LOAD lamp (R78). -/
  refused : Bool
  lamp : LoadLamp
  lastScan : Option ScanResult
  /-- The garment records in use, by serial (R79). -/
  garments : List (Nat × Garment)
  lastSerial : Nat
deriving DecidableEq, Repr

/-! ## Pretreat Controller (PTR) -/

inductive Bar where
  | parked | out | back
deriving DecidableEq, Repr

inductive PretreatJob where
  | none | held | waiting | spraying | cut
deriving DecidableEq, Repr

/-- One valve within the present row window (R89, R96). -/
inductive Valve where
  | waiting
  | open_ (since : Nat)
  | closed
deriving DecidableEq, Repr

/-- A spray schedule (R93): the 104 cell times, lane-major, with the settings it was computed from. -/
structure Schedule where
  times : List Nat
  speed : Nat
  window : Nat
  delays : List Nat
  flow : Nat
  fluid : Nat
deriving DecidableEq, Repr

inductive FlashJob where
  | none | cold | hot | pressing | cut
deriving DecidableEq, Repr

structure Ptr where
  /-- The tank estimate in µg (R94). -/
  tank : Nat
  bar : Bar
  /-- Outward travel of the bar, as µs of outward motion, where it last stood still or turned (R96, R98). -/
  barTravel : Nat
  /-- The clock at which the bar's present motion began; `none` while it stands. -/
  barFrom : Option Nat
  job : PretreatJob
  schedule : Option Schedule
  /-- The row window in progress, 0..12 (R89). -/
  row : Nat
  valves : List Valve
  flashReading : Nat
  flashFaulted : Bool
  /-- The press is CLOSED (R100). -/
  pressClosed : Bool
  /-- The target window T_fmin, T_fmax (R100). -/
  target : Option (Nat × Nat)
  flashJob : FlashJob
  /-- The hot wait is over, in HALTED: since the entry to HALTED FLASH_HOT became IDLE (R105), or its condition ended
  with FLASH_HOT IDLE already (log entry 42). The line resume then decides the garment again. -/
  hotOver : Bool
  /-- The cold wait's timer, and the wait limit read at its start in s (R102). -/
  waitFrom : Option Nat
  waitLimit : Nat
  /-- The dwell timer (R104). -/
  dwellFrom : Option Nat
  /-- The press heater output (R100). -/
  heater : Bool
deriving DecidableEq, Repr

/-! ## Shuttle Framer (SHF) -/

inductive Shuttle where
  | homing | home | forward | return_ | stopped
deriving DecidableEq, Repr

inductive PrintJob where
  | none | waiting | spit | stroke | return_ | held | cut
deriving DecidableEq, Repr

/-- A garment's stroke plan (R109): the strokes still to run (the running one at the front), the image lines Y0 to Y0 +
H − 1, and the first mark line when the mark is on. -/
structure Plan where
  strokes : List Nat
  image : Option (Nat × Nat)
  mark : Option Nat
deriving DecidableEq, Repr

structure Shf where
  shuttle : Shuttle
  /-- The shuttle position in encoder counts (R107). -/
  pos : Int
  /-- The shuttle speed of the present motion in mm/s (R108). -/
  speed : Nat
  /-- The no-signal timer (R120). -/
  noSignal : Option Nat
  job : PrintJob
  plan : Plan
  /-- The print of the garment at PRINT has begun (R110, R43). -/
  begun : Bool
  /-- The running stroke's number, 0 while none runs (R123). -/
  stroke : Nat
  lossRule : LossRule
  tol : Nat
  autoResync : Bool
  framer : Framer
  /-- Consecutive good marks (R113). -/
  good : Nat
  /-- The mark window, oldest first; `true` is a good mark (R114). -/
  window : List Bool
  framing : Nat
  skipped : Nat
  blanked : Nat
  /-- The greatest position reached in this stroke: line events up to it have been made (R116). -/
  reach : Nat
  /-- The clock at the last line event of the form FIRE in this stroke (R118). -/
  lastFire : Option Nat
deriving DecidableEq, Repr

/-! ## Firing Data Path (FDP) -/

/-- A nozzle that is not OK (R125); a nozzle the map does not list is OK. -/
inductive NozzleFault where
  | weak | dead
deriving DecidableEq, Repr

/-- A fire value that is not 0 (R124, R137). -/
inductive FireValue where
  | drop (value : Nat)
  | tickle
deriving DecidableEq, Repr

/-- One sending on the head data lanes (R124): the field line of a FIRE line, or none for a spit, and the values given
to nozzles, those of 0 left out. -/
structure HeadLine where
  line : Option Nat
  values : List (Nat × FireValue)
deriving DecidableEq, Repr

/-- A spit in progress (R139, R140): the channels that fire, each with the count of drops from each of its nozzles, and
the map copy. -/
structure Spit where
  channels : List (Nat × Nat)
  map : List (Nat × NozzleFault)
deriving DecidableEq, Repr

/-- The stroke state of R128. `read` lists the (channel, band) pairs whose band-plane has been read. -/
structure Stroke where
  map : List (Nat × NozzleFault)
  interval : Nat
  exempt : BitVec 120
  /-- The idle counters, by nozzle number (R137). -/
  idle : List (Nat × Nat)
  lostDots : Nat
  tickles : Nat
  /-- The lost band-planes, as (channel, band) (R129). -/
  lost : List (Nat × Nat)
  read : List (Nat × Nat)
  /-- The 24 bits of the neck mark (R132). -/
  mark : Option (BitVec 24)
deriving DecidableEq, Repr

structure Fdp where
  /-- The nozzle map: the nozzles that are not OK, by nozzle number 9,600 c + 4,800 r + position (R125). -/
  nozzles : List (Nat × NozzleFault)
  spitCounter : Nat
  spit : Option Spit
  stroke : Option Stroke
  /-- What is sent to the heads: in a spit the value of each nozzle's drops (R140), in a stroke the FIRE lines of the last
  encoder count or good mark, in their order (R116, R124, R136). -/
  head : List HeadLine
deriving DecidableEq, Repr

/-! ## Cure Tunnel Controller (CTC) -/

/-- One zone (R146 to R151): the latest reading, whether it is faulted, the duty applied in ‰, and the run counts of
ZONE_TRIP and ZONE_LOW. -/
structure Zone where
  reading : Nat
  faulted : Bool
  duty : Nat
  tripBegin : Nat
  tripEnd : Nat
  lowBegin : Nat
  lowEnd : Nat
deriving DecidableEq, Repr

/-- A member of the tunnel list: a garment and its travel in belt counts (R144). -/
structure Rider where
  serial : Nat
  travel : Nat
deriving DecidableEq, Repr

structure Ctc where
  zones : List Zone
  sampleCount : Nat
  /-- The selected belt speed in 0.1 mm/s (R156). -/
  selected : Nat
  /-- The belt stall timer (R158). -/
  stallFrom : Option Nat
  /-- The tunnel list, front first (R145). -/
  tunnel : List Rider
  /-- The gate is HELD (R161). -/
  gateHeld : Bool
  unloadClaim : Option Nat
  refeedClaim : Option Nat
  entrant : Option Nat
deriving DecidableEq, Repr

/-! ## Exit and Sort (EXS) -/

inductive EntryLamp where
  | off | wait | go | refused
deriving DecidableEq, Repr

inductive BinState where
  | free | filling | complete
deriving DecidableEq, Repr

/-- A bin (R187). -/
structure Bin where
  state : BinState
  order : Option Nat
  count : Nat
deriving DecidableEq, Repr

structure Exs where
  /-- The recure list of serials, front first (R182). -/
  recure : List Nat
  lamp : EntryLamp
  diverter : Route
  /-- The diverter hold in belt counts, `none` while ended (R180). -/
  hold : Option Nat
  foreign : Nat
  unknown : Nat
  malformed : Nat
  /-- The bin table: bin n is entry n − 1 (R187). -/
  bins : List Bin
  /-- The last reason reported for the re-feed claim (R184). -/
  reason : Hold
deriving DecidableEq, Repr

/-! ## Alarm Unit (ALM) -/

inductive AlarmState where
  | idle | active | latched
deriving DecidableEq, Repr

/-- An alarm record (R195). Its sense and notice mask are line settings. -/
structure Alarm where
  state : AlarmState
  present : Bool
  acked : Bool
  count : Nat
  simulated : Bool
deriving DecidableEq, Repr

/-- A scanner line (R209): `discarding`, or ASSEMBLING, and its record buffer. -/
structure Scanner where
  buffer : List Byte
  discarding : Bool
deriving DecidableEq, Repr

structure Alm where
  /-- The 22 alarm records, by index (R229). -/
  alarms : List Alarm
  drill : Nat
  load : Scanner
  entry : Scanner
  exit : Scanner
deriving DecidableEq, Repr

/-- The field inputs as last read: e-stop active, guard g high at bit g − 1, KEY high. -/
structure Pins where
  estop : Bool
  guards : BitVec 4
  key : Bool
deriving DecidableEq, Repr

/-! ## The machine -/

/-- The state of the DG-8: its clock, its field inputs, its eleven blocks, and the commands waiting. -/
structure State where
  /-- Microseconds since power-on (log entry 2). -/
  clock : Nat
  pins : Pins
  lnk : Lnk
  ord : Ord
  ims : Ims
  prf : Prf
  car : Car
  ptr : Ptr
  shf : Shf
  fdp : Fdp
  ctc : Ctc
  exs : Exs
  alm : Alm
  /-- The commands waiting, first in first out. -/
  pending : List Instr
deriving DecidableEq, Repr

/-- Why the machine stops. No meaning raises a fault: the manual gives every command of the table an effect, and says of
the events that find nothing to act on that they change nothing. -/
inductive Fault where
  /-- Held for a behaviour to which the manual gives no effect; raised by no command (safe). -/
  | unspecified
deriving DecidableEq, Repr

/-- Why a command is refused by the model (a refusal by the block is a reply with its status, not this). -/
inductive Refusal where
  /-- A command that has no meaning yet: raised by its arm of `exec` only (safe). -/
  | notModelled (mnemonic : String)
deriving DecidableEq, Repr

/-! ## Power-on values -/

/-- The power-on profile (R50). -/
def Profile.powerOn : Profile :=
  { basis := .none, pFloor := 0, tBase := 0, tGain := 0, tMin := 0, tMax := 4000, dwell := 0, tfMin := 1000,
    tfMax := 2500, lineLimit := 6240, dotLimit := 16777215, markOn := false, markX := 0, markY := 0, tTh := 1400,
    dBase := 0, kInk := 0, dMax := 4000000 }

/-- The power-on line settings (R56): the sense EDGE for STORE_ECC (12), NO_BIN (13) and SCANNER (14). -/
def LineSettings.powerOn : LineSettings :=
  { lineId := 1, reprintLimit := 2, recureLimit := 1, reserve := .zero, lossRule := .twoOfFour, markTol := 2,
    autoResync := true, shuttleSpeed := 800, tickle := 96, exempt := 0, barSpeed := 200, laneMult := 1,
    laneDelays := List.replicate 8 40, flow := 120, tankCap := 5000, tankReserve := 250, flashWait := 30,
    bins := 24, guardMask := 15, senses := List.replicate 11 .edgeLevel ++ List.replicate 3 .edge,
    masks := List.replicate 22 false, lock := false }

/-- The power-on cure settings (R60). -/
def CureSettings.powerOn : CureSettings :=
  { tSet := [1600, 1600, 1600], tTrip := 2000, band := 100, samples := 20, gain := 40, dMin := 0, dMax := 1000,
    sMin := 100, sMax := 800 }

/-- The power-on spit settings (R62). -/
def SpitSettings.powerOn : SpitSettings :=
  { period := 4, masks := List.replicate 5 0xFFFF, counts := List.replicate 5 20 }

/-- LNK after power-on (R226). -/
def Lnk.powerOn : Lnk :=
  { configured := false, pipe := [], parser := .hunt, reply := none, tx := .idle, sending := none, notices := [] }

/-- ORD after either reset (R1, R3). -/
def Ord.powerOn : Ord := { orders := [], units := [], queue := [], seq := 0 }

/-- IMS after power-on (R24, R25, R27, R49). -/
def Ims.powerOn : Ims :=
  { images := [], scanQueue := [], scan := none, retired := [], corrected := 0, store := [] }

/-- PRF after power-on (R63). -/
def Prf.powerOn : Prf :=
  { profiles := List.replicate 16 .powerOn, line := .powerOn, cure := .powerOn, spit := .powerOn }

/-- CAR after power-on (R64, R65, R67, R78, R79, R82, R85, R88). -/
def Car.powerOn : Car :=
  { platens := (List.range 8).map fun k => { number := k, contents := .unknown },
    load := { working := true, hold := .none }, pretreat := { working := false, hold := .none },
    flash := { working := false, hold := .none }, print := { working := false, hold := .none },
    unload := { working := false, hold := .none }, index := .none, indexRun := 0, indexFrom := 0, line := .idle,
    transfer := .none, refused := false, lamp := .off, lastScan := none, garments := [], lastSerial := 0 }

/-- PTR after power-on (R99, R106). -/
def Ptr.powerOn : Ptr :=
  { tank := 0, bar := .parked, barTravel := 0, barFrom := none, job := .none, schedule := none, row := 0,
    valves := List.replicate 8 .closed, flashReading := 0, flashFaulted := false, pressClosed := false,
    target := none, flashJob := .none, hotOver := false, waitFrom := none, waitLimit := 30, dwellFrom := none,
    heater := false }

/-- SHF after power-on (R108, R123): the shuttle seeks its home sensor. -/
def Shf.powerOn : Shf :=
  { shuttle := .homing, pos := 0, speed := 800, noSignal := some 0, job := .none,
    plan := { strokes := [], image := none, mark := none }, begun := false, stroke := 0, lossRule := .twoOfFour,
    tol := 2, autoResync := true, framer := .acquire, good := 0, window := [], framing := 0, skipped := 0,
    blanked := 0, reach := 0, lastFire := none }

/-- FDP after power-on (R125, R139, R143). -/
def Fdp.powerOn : Fdp := { nozzles := [], spitCounter := 0, spit := none, stroke := none, head := [] }

/-- CTC after power-on (R156, R161, R170). -/
def Ctc.powerOn : Ctc :=
  { zones := List.replicate 3 { reading := 0, faulted := false, duty := 0, tripBegin := 0, tripEnd := 0,
                                lowBegin := 0, lowEnd := 0 },
    sampleCount := 0, selected := 800, stallFrom := none, tunnel := [], gateHeld := false, unloadClaim := none,
    refeedClaim := none, entrant := none }

/-- A FREE bin (R187). -/
def Bin.freed : Bin := { state := .free, order := none, count := 0 }

/-- EXS after power-on (R193). -/
def Exs.powerOn : Exs :=
  { recure := [], lamp := .off, diverter := .manual, hold := none, foreign := 0, unknown := 0, malformed := 0,
    bins := List.replicate 24 .freed, reason := .none }

/-- An alarm record at power-on (R195). -/
def Alarm.powerOn : Alarm := { state := .idle, present := false, acked := false, count := 0, simulated := false }

/-- A scanner line at power-on (R211). -/
def Scanner.powerOn : Scanner := { buffer := [], discarding := false }

/-- ALM after power-on, before its first reading (R211). -/
def Alm.powerOn : Alm :=
  { alarms := List.replicate 22 .powerOn, drill := 0, load := .powerOn, entry := .powerOn, exit := .powerOn }

/-- The machine right after power-on, with e-stop inactive, every guard high and KEY low (log entry 3), so that ALM's
first reading finds nothing (R211). -/
def State.reset : State :=
  { clock := 0, pins := { estop := false, guards := 15, key := false }, lnk := .powerOn, ord := .powerOn,
    ims := .powerOn, prf := .powerOn, car := .powerOn, ptr := .powerOn, shf := .powerOn, fdp := .powerOn,
    ctc := .powerOn, exs := .powerOn, alm := .powerOn, pending := [] }

end Sys2Proof.Machine
end

