-- ==== Sys2Proof/Machine/Ops.lean ====
section
/-!
DEFINITION. The named operations over the tables, the store, the stations, the garment records and the notice
list. Every meaning reads and writes the state through these.
-/

namespace Sys2Proof.Machine

/-! ## Tables keyed by a number, in rising key order -/

/-- The record with key `k`. -/
def tabGet {α : Type} (k : Nat) : List (Nat × α) → Option α
  | [] => none
  | (j, v) :: t => if j = k then some v else tabGet k t

/-- Put `v` at key `k`, in rising key order. -/
def tabSet {α : Type} (k : Nat) (v : α) : List (Nat × α) → List (Nat × α)
  | [] => [(k, v)]
  | (j, w) :: t => if k < j then (k, v) :: (j, w) :: t else if k = j then (k, v) :: t else (j, w) :: tabSet k v t

/-- Change the record with key `k`, if there is one. -/
def tabMap {α : Type} (k : Nat) (f : α → α) : List (Nat × α) → List (Nat × α)
  | [] => []
  | (j, v) :: t => (j, if j = k then f v else v) :: tabMap k f t

/-- Take the record with key `k` out. -/
def tabErase {α : Type} (k : Nat) : List (Nat × α) → List (Nat × α)
  | [] => []
  | (j, v) :: t => if j = k then tabErase k t else (j, v) :: tabErase k t

/-- The keys rise strictly. -/
def tabWf {α : Type} : List (Nat × α) → Bool
  | [] => true
  | (j, _) :: t => t.all (fun p => j < p.1) && tabWf t

/-- The lowest number below `n` that is no key: the slot a new record takes (log entry 5). -/
def freeKey {α : Type} (n : Nat) (t : List (Nat × α)) : Option Nat :=
  (List.range n).find? fun k => (tabGet k t).isNone

/-- Entry `k` of a list, changed. -/
def listMap {α : Type} (k : Nat) (f : α → α) (l : List α) : List α := l.modify k f

/-! ## The bytes of the image store -/

/-- What an unlisted store address reads as (log entry 4). -/
def storeBlank : Byte := 0

/-- The byte at a store address. -/
def storeRead (m : List Host.Cell) (a : Nat) : Byte := (tabGet a m).getD storeBlank

/-- The cells that the bytes `bs` make from address `a` upward; a byte equal to `storeBlank` makes none. -/
def storeCells : Nat → List Byte → List Host.Cell
  | _, [] => []
  | a, b :: bs => if b = storeBlank then storeCells (a + 1) bs else (a, b) :: storeCells (a + 1) bs

/-- Write the bytes `bs` from address `a` upward. -/
def storeWrite (a : Nat) (bs : List Byte) (m : List Host.Cell) : List Host.Cell :=
  m.filter (fun c => c.1 < a) ++ storeCells a bs ++ m.filter (fun c => a + bs.length ≤ c.1)

/-- The canonical form of the store: addresses rise strictly, and no cell reads as an unlisted one. -/
def Memory.wf (m : List Host.Cell) : Bool := tabWf m && m.all (fun c => c.2 != storeBlank)

/-- The first `len` bytes of page `n` (R24). -/
def pageRead (m : List Host.Cell) (n len : Nat) : List Byte :=
  (List.range len).map fun k => storeRead m (n * Config.pageBytes + k)

/-! ## One block changed, the others kept -/

def State.withPins (f : Pins → Pins) (s : State) : State := { s with pins := f s.pins }
def State.withLnk (f : Lnk → Lnk) (s : State) : State := { s with lnk := f s.lnk }
def State.withOrd (f : Ord → Ord) (s : State) : State := { s with ord := f s.ord }
def State.withIms (f : Ims → Ims) (s : State) : State := { s with ims := f s.ims }
def State.withPrf (f : Prf → Prf) (s : State) : State := { s with prf := f s.prf }
def State.withCar (f : Car → Car) (s : State) : State := { s with car := f s.car }
def State.withPtr (f : Ptr → Ptr) (s : State) : State := { s with ptr := f s.ptr }
def State.withShf (f : Shf → Shf) (s : State) : State := { s with shf := f s.shf }
def State.withFdp (f : Fdp → Fdp) (s : State) : State := { s with fdp := f s.fdp }
def State.withCtc (f : Ctc → Ctc) (s : State) : State := { s with ctc := f s.ctc }
def State.withExs (f : Exs → Exs) (s : State) : State := { s with exs := f s.exs }
def State.withAlm (f : Alm → Alm) (s : State) : State := { s with alm := f s.alm }

/-! ## The notice list -/

/-- Append a reference: an absent one joins the back, a present one keeps its place (R219). -/
def noteIn (r : Ref) (l : List Ref) : List Ref := if r ∈ l then l else l ++ [r]

/-- Append a reference to the notice list (R219). -/
def note (r : Ref) (s : State) : State := s.withLnk fun l => { l with notices := noteIn r l.notices }

/-! ## Lines, stations and platens -/

/-- The line is RUNNING or DRAINING. -/
def lineMoves (s : State) : Bool := s.car.line == .running || s.car.line == .draining

/-- The line is RUNNING, DRAINING or STOPPED: the states in which heaters and belt run (R149, R157). -/
def lineWarm (s : State) : Bool := lineMoves s || s.car.line == .stopped

/-- The record of a station. -/
def station (st : Station) (s : State) : StationRec :=
  match st with
  | .load => s.car.load
  | .pretreat => s.car.pretreat
  | .flash => s.car.flash
  | .print => s.car.print
  | .unload => s.car.unload

/-- Change the record of a station. -/
def setStation (st : Station) (r : StationRec) (s : State) : State :=
  s.withCar fun c =>
    match st with
    | .load => { c with load := r }
    | .pretreat => { c with pretreat := r }
    | .flash => { c with flash := r }
    | .print => { c with print := r }
    | .unload => { c with unload := r }

/-- The carousel position of a station (00_scope.md, Line hardware). -/
def positionOf : Station → Nat
  | .load => 0
  | .pretreat => 1
  | .flash => 2
  | .print => 4
  | .unload => 6

/-- The contents of the platen at a station's position. -/
def contentsAt (st : Station) (s : State) : Contents :=
  ((s.car.platens[positionOf st]?).map Platen.contents).getD .empty

/-- The serial of the garment on the platen at a station's position, no index being in progress (R68). -/
def garmentAt (st : Station) (s : State) : Option Nat :=
  match s.car.index, contentsAt st s with
  | .none, .garment n => some n
  | _, _ => none

/-- Set the contents of the platen at a station's position. -/
def setContents (st : Station) (c : Contents) (s : State) : State :=
  s.withCar fun k => { k with platens := listMap (positionOf st) (fun p => { p with contents := c }) k.platens }

/-- No platen holds a garment; UNKNOWN platens do not count (R72). -/
def noGarmentOnPlatens (s : State) : Bool :=
  s.car.platens.all fun p => match p.contents with
    | .garment _ => false
    | _ => true

/-- Set a station's hold reason; a change appends the line to the notice list (R66). -/
def setHold (st : Station) (h : Hold) (s : State) : State :=
  if (station st s).hold = h then s else note .line (setStation st { station st s with hold := h } s)

/-- A completion report at a station: RELEASED, hold reason NONE (R66). -/
def release (st : Station) (s : State) : State :=
  let s := setHold st .none s
  setStation st { station st s with working := false } s

/-! ## Garment records -/

/-- The garment record of a serial. -/
def garment (serial : Nat) (s : State) : Option Garment := tabGet serial s.car.garments

/-- Change the garment record of a serial. -/
def withGarment (serial : Nat) (f : Garment → Garment) (s : State) : State :=
  s.withCar fun c => { c with garments := tabMap serial f c.garments }

/-- Add a member to an ordered set with no duplicates (R83). -/
def addTo {α : Type} [DecidableEq α] (x : α) (l : List α) : List α := if x ∈ l then l else l ++ [x]

/-- Give a garment a defect (R83). -/
def addDefect (serial : Nat) (d : Defect) (s : State) : State :=
  withGarment serial (fun g => { g with defects := addTo d g.defects }) s

/-- Give a garment a warning (R83). -/
def addWarning (serial : Nat) (w : Warning) (s : State) : State :=
  withGarment serial (fun g => { g with warnings := addTo w g.warnings }) s

/-- Set a garment's stage (R80). -/
def setStage (serial : Nat) (st : Stage) (s : State) : State :=
  withGarment serial (fun g => { g with stage := st }) s

/-- The garment has not finished print (R80). -/
def beforePrinted (g : Garment) : Bool :=
  match g.stage with
  | .bound | .loaded | .pretreated | .flashed => true
  | _ => false

/-- The garment holds a reference to the image of that id: it names it and has not finished print (R41). -/
def holdsImage (id : Nat) (g : Garment) : Bool := (g.image == some id) && beforePrinted g

/-! ## Image records -/

/-- The slot and record of the image of an id that is not removed (R27). -/
def imageOf (id : Nat) (s : State) : Option (Nat × Image) :=
  s.ims.images.find? fun p => p.2.id == id && !p.2.removed

/-- The image that is OPEN, the stream target (R32). -/
def openImage (s : State) : Option (Nat × Image) :=
  s.ims.images.find? fun p => p.2.state == .open_ && !p.2.removed

/-- Change the image record of a slot. -/
def withImage (slot : Nat) (f : Image → Image) (s : State) : State :=
  s.withIms fun i => { i with images := tabMap slot f i.images }

/-- Change the image record of an id that is not removed, if there is one. -/
def withImageId (id : Nat) (f : Image → Image) (s : State) : State :=
  match imageOf id s with
  | some (slot, _) => withImage slot f s
  | none => s

/-- The image of an id is in the table in state READY. -/
def imageReady (id : Nat) (s : State) : Bool :=
  match imageOf id s with
  | some (_, i) => i.state == .ready
  | none => false

/-- CAR returns the garment's image reference, if it holds one (R41, R66, R77). -/
def returnImageRef (serial : Nat) (s : State) : State :=
  match garment serial s with
  | some g =>
    match g.image with
    | some id => if beforePrinted g then withImageId id (fun i => { i with garmentRefs := i.garmentRefs - 1 }) s else s
    | none => s
  | none => s

/-! ## The clock -/

/-- Whole units of `unit` µs since `start`. -/
def elapsed (start unit : Nat) (s : State) : Nat := (s.clock - start) / unit

end Sys2Proof.Machine
end

