-- ==== Sys2Proof/Machine/Operands.lean ====
section
/-!
DEFINITION. The operand forms: the codes of R229, the clamps of R55, numbers and lists of bytes (R227), decimal
fields of scanner records (R12, R172), and the two encodings of band-plane data (R34, R35).
-/

namespace Sys2Proof.Machine

/-! ## Numbers -/

/-- Clamp `n` to the range `lo..hi` (00_scope.md, Numbers and arithmetic). -/
def clamp (lo hi n : Nat) : Nat := if n < lo then lo else if hi < n then hi else n

/-- Raise a saturating counter by `k`, to at most `top`. -/
def satAdd (top k n : Nat) : Nat := if n + k ≤ top then n + k else top

/-- A quotient rounded up. -/
def ceilDiv (a b : Nat) : Nat := (a + b - 1) / b

/-- `n` as `width` bytes, big-endian (R227). -/
def be (width n : Nat) : List Byte :=
  match width with
  | 0 => []
  | w + 1 => BitVec.ofNat 8 (n / 256 ^ w) :: be w n

/-- The number that bytes spell, big-endian (R227). -/
def ofBe (bs : List Byte) : Nat := bs.foldl (fun a b => a * 256 + b.toNat) 0

/-- A flag as one byte (R227). -/
def flagByte (b : Bool) : Byte := if b then 1 else 0

/-- The flag that a number carries: 0 or 1, anything else lies outside the enumeration (R227). -/
def flagOf (n : Nat) : Option Bool :=
  match n with
  | 0 => some false
  | 1 => some true
  | _ => none

/-! ## Codes of R229 that requests carry -/

/-- Channels W, C, M, Y, K are 0 to 4 (R229). -/
def channelOk (c : Nat) : Bool := c < 5

/-- Rows A and B are 0 and 1 (R229). -/
def rowOk (r : Nat) : Bool := r < 2

/-- A nozzle state: OK is `some none` (R229). -/
def nozzleStateOf (n : Nat) : Option (Option NozzleFault) :=
  match n with
  | 0 => some none
  | 1 => some (some .weak)
  | 2 => some (some .dead)
  | _ => none

def priorityOf (n : Nat) : Option Priority :=
  match n with
  | 0 => some .normal
  | 1 => some .rush
  | _ => none

def basisOf (n : Nat) : Option Basis :=
  match n with
  | 0 => some .none
  | 1 => some .white
  | 2 => some .all
  | _ => none

def lossRuleOf (n : Nat) : Option LossRule :=
  match n with
  | 0 => some .twoOfFour
  | 1 => some .twoOfFive
  | _ => none

def reserveOf (n : Nat) : Option Reserve :=
  match n with
  | 0 => some .zero
  | 1 => some .sixteenth
  | 2 => some .eighth
  | 3 => some .quarter
  | 4 => some .half
  | _ => none

def senseOf (n : Nat) : Option Sense :=
  match n with
  | 0 => some .edge
  | 1 => some .edgeLevel
  | _ => none

/-- A channel set: bits 5 to 7 clear and not empty (R29, R229). -/
def channelSetOf (n : Nat) : Option (BitVec 5) := if n = 0 ∨ 32 ≤ n then none else some (BitVec.ofNat 5 n)

/-- The first instance index and the number of instances of an alarm kind code (R194, R229). -/
def alarmKind (kind : Nat) : Option (Nat × Nat) :=
  match kind with
  | 1 => some (0, 1)
  | 2 => some (1, 1)
  | 3 => some (2, 1)
  | 4 => some (3, 1)
  | 5 => some (4, 1)
  | 6 => some (5, 1)
  | 7 => some (6, 1)
  | 8 => some (7, 3)
  | 9 => some (10, 3)
  | 10 => some (13, 3)
  | 11 => some (16, 1)
  | 12 => some (17, 1)
  | 13 => some (18, 1)
  | 14 => some (19, 3)
  | _ => none

/-- The instance index of a kind and an instance number, if it exists (R199, R203). -/
def alarmIndex (kind number : Nat) : Option Nat :=
  match alarmKind kind with
  | some (base, n) => if number < n then some (base + number) else none
  | none => none

/-- The kind code and instance number of an instance index (R229). -/
def kindOf (i : Nat) : Nat × Nat :=
  if i < 7 then (i + 1, 0)
  else if i < 10 then (8, i - 7)
  else if i < 13 then (9, i - 10)
  else if i < 16 then (10, i - 13)
  else if i < 19 then (i - 5, 0)
  else (14, i - 19)

/-! ## Characters of scanner records -/

/-- CR and LF (R209). -/
def cr : Byte := 0x0D
def lf : Byte := 0x0A

/-- An ASCII decimal digit. -/
def isDigit (b : Byte) : Bool := 0x30 ≤ b.toNat && b.toNat ≤ 0x39

/-- The number that decimal digits spell; leading zeros do not count (R2, R172). -/
def decimal (bs : List Byte) : Nat := bs.foldl (fun a b => a * 10 + (b.toNat - 0x30)) 0

/-- A LOAD record of 1 to 12 decimal digits, as an SKU (R2, R12). -/
def skuOf (chars : List Byte) : Option Nat :=
  if 1 ≤ chars.length ∧ chars.length ≤ 12 ∧ chars.all isDigit = true then some (decimal chars) else none

/-- An EXIT or ENTRY record: three digits, a hyphen and five digits, as a line id and a serial (R172, R183). -/
def markOf (chars : List Byte) : Option (Nat × Nat) :=
  if chars.length = 9 ∧ (chars.take 3).all isDigit = true ∧ chars[3]? = some 0x2D ∧ (chars.drop 4).all isDigit = true then
    some (decimal (chars.take 3), decimal (chars.drop 4))
  else none

/-! ## Band-planes -/

/-- The number of bands of an image of `h` lines (R28). -/
def bandsOf (h : Nat) : Nat := ceilDiv h 48

/-- The lines of band `b` of an image of `h` lines: 48, or what is left in the last band (R28). -/
def bandLines (h b : Nat) : Nat := min 48 (h - 48 * b)

/-- Bytes of one line of an image of `w` dots (R24). -/
def lineBytes (w : Nat) : Nat := ceilDiv w 4

/-- The plane size of band `b` (R24). -/
def planeSize (w h b : Nat) : Nat := bandLines h b * lineBytes w

/-- The channels of a set, in the order W, C, M, Y, K (R28). -/
def channelsIn (set : BitVec 5) : List Nat := (List.range 5).filter fun c => set.getLsbD c

/-- Entry index of channel `ch` and band `b` in the band-plane list of an image (R28). -/
def planeIndex (set : BitVec 5) (h ch b : Nat) : Option Nat :=
  if set.getLsbD ch = true ∧ b < bandsOf h then some ((channelsIn set).idxOf ch * bandsOf h + b) else none

/-- The runs of R35: `need` bytes are still wanted. A run that would go past the plane, a run short of bytes,
an early end and bytes left over all give `none`. `fuel` bounds the number of runs. -/
def rle : Nat → Nat → List Byte → Option (List Byte)
  | _, 0, [] => some []
  | _, 0, _ :: _ => none
  | _, _ + 1, [] => none
  | 0, _ + 1, _ :: _ => none
  | fuel + 1, need + 1, n :: rest =>
    if n.toNat < 128 then
      let k := n.toNat + 1
      if k ≤ rest.length ∧ k ≤ need + 1 then (rle fuel (need + 1 - k) (rest.drop k)).map (rest.take k ++ ·) else none
    else
      match rest with
      | [] => none
      | v :: more =>
        let k := n.toNat - 126
        if k ≤ need + 1 then (rle fuel (need + 1 - k) more).map (List.replicate k v ++ ·) else none

/-- The plane that BAND data yields: encoding 0 RAW (R34), 1 RLE (R35). -/
def planeData (encoding size : Nat) (data : List Byte) : Option (List Byte) :=
  match encoding with
  | 0 => if data.length = size then some data else none
  | _ => rle data.length size data

/-- Dot `x` of line `y` of a plane of lines of `stride` bytes: four dots a byte, the first in the two most
significant bits (R24). -/
def dotOf (stride : Nat) (plane : List Byte) (y x : Nat) : Nat :=
  (((plane[y * stride + x / 4]?).getD 0).toNat / 4 ^ (3 - x % 4)) % 4

end Sys2Proof.Machine
end

