-- ==== Sys2Proof/Machine/Flags.lean ====
section
/-!
DEFINITION. The alarm records of ALM: onset, end, acknowledgement and drill (R194 to R208). What an owner does
at an onset or at a return to IDLE stands with the owner; the halt of a halt-class onset stands in Line.lean.
-/

namespace Sys2Proof.Machine

/-! ## Instance indices (R229) -/

abbrev aEstop : Nat := 0
abbrev aGuard : Nat := 1
abbrev aIndexFault : Nat := 2
abbrev aEncoder : Nat := 3
abbrev aFluidLow : Nat := 4
abbrev aFlashCold : Nat := 5
abbrev aFlashHot : Nat := 6
/-- ZONE_TRIP of zone z, 0..2 for Z1..Z3. -/
abbrev aZoneTrip (z : Nat) : Nat := 7 + z
abbrev aZoneLow (z : Nat) : Nat := 10 + z
abbrev aZoneSensor (z : Nat) : Nat := 13 + z
abbrev aBeltStall : Nat := 16
abbrev aStoreEcc : Nat := 17
abbrev aNoBin : Nat := 18
/-- SCANNER of a scanner line: LOAD, ENTRY, EXIT. -/
def aScanner : ScanLine → Nat
  | .load => 19
  | .entry => 20
  | .exit => 21

/-- The effect class of an instance (R194): 0 halt, 1 hold, 2 note. -/
def alarmClass (i : Nat) : Nat :=
  if i = aEstop ∨ i = aIndexFault ∨ i = aBeltStall then 0
  else if i = aGuard ∨ i = aEncoder ∨ i = aFluidLow ∨ i = aFlashHot then 1
  else 2

/-- The record of an instance. -/
def alarm (i : Nat) (s : State) : Alarm := (s.alm.alarms[i]?).getD .powerOn

/-- The sense of an instance, from its kind's setting (R195). -/
def senseAt (i : Nat) (s : State) : Sense := (s.prf.line.senses[(kindOf i).1 - 1]?).getD .edgeLevel

/-- The instance is masked (R202). -/
def masked (i : Nat) (s : State) : Bool := (s.prf.line.masks[i]?).getD false

/-- Append an instance to the notice list, unless it is masked (R202). -/
def noteAlarm (i : Nat) (s : State) : State := if masked i s then s else note (.alarm i) s

/-- Change the record of an instance. -/
def withAlarm (i : Nat) (f : Alarm → Alarm) (s : State) : State :=
  s.withAlm fun a => { a with alarms := listMap i f a.alarms }

/-- An onset (R197): `momentary` when its condition also ends at the event. -/
def onset (i : Nat) (momentary : Bool) (s : State) : State :=
  noteAlarm i (withAlarm i (fun a =>
    { state := if momentary then .latched else .active, present := !momentary, acked := false,
      count := satAdd 255 1 a.count, simulated := false }) s)

/-- The end of a condition (R198). -/
def Alarm.ended (a : Alarm) : Alarm :=
  match a.state with
  | .active =>
    if a.acked then { a with state := .idle, present := false, acked := false, simulated := false }
    else { a with state := .latched, present := false }
  | _ => { a with present := false }

/-- The end of a condition is reported; a change of state appends the instance (R198, R202). -/
def conditionEnd (i : Nat) (s : State) : State :=
  let t := withAlarm i Alarm.ended s
  if (alarm i s).state = .active then noteAlarm i t else t

/-- Report a level condition as it now stands: a change from absent to present is an onset, a change from
present to absent its end, a repeated report nothing (R196). -/
def reportCondition (i : Nat) (now : Bool) (s : State) : State :=
  if now then (if (alarm i s).present then s else onset i false s)
  else (if (alarm i s).present then conditionEnd i s else s)

/-- What an accepted acknowledgement makes of a record (R199). -/
def Alarm.acknowledged (sense : Sense) (a : Alarm) : Alarm :=
  match a.state, sense with
  | .idle, _ => a
  | .active, .edge => { a with state := .idle, acked := false, simulated := false }
  | .active, .edgeLevel => { a with acked := true }
  | .latched, _ => { a with state := .idle, simulated := false }

/-- An accepted acknowledgement; a change of the state or of Acknowledged appends the instance (R199, R202). -/
def acknowledge (i : Nat) (s : State) : State :=
  let a := alarm i s
  let b := a.acknowledged (senseAt i s)
  if a.state = b.state ∧ a.acked = b.acked then s else noteAlarm i (withAlarm i (fun _ => b) s)

/-- The owner holds the instance as IDLE: it is IDLE, or SIMULATED and so not reported (R201). -/
def ownerIdle (i : Nat) (s : State) : Bool := (alarm i s).state == .idle || (alarm i s).simulated

/-- A simulated onset: made on an IDLE instance only, whose real condition is kept (R207). -/
def simulate (i : Nat) (s : State) : State :=
  if (alarm i s).state = .idle then
    noteAlarm i (withAlarm i (fun a =>
      { a with state := .latched, acked := false, count := satAdd 255 1 a.count, simulated := true }) s)
  else s

/-- One SIMULATED instance returns to IDLE (R208). -/
def unsimulate (i : Nat) (s : State) : State :=
  if (alarm i s).simulated then
    noteAlarm i (withAlarm i (fun a => { a with state := .idle, acked := false, simulated := false }) s)
  else s

/-- The drill ends: step 0, every SIMULATED instance IDLE (R208). -/
def endDrill (s : State) : State :=
  (List.range 22).foldl (fun t i => unsimulate i t) (s.withAlm fun a => { a with drill := 0 })

/-- The simulated onsets of a drill step (R207). The model's choice: the two instances of one step join the notice list in
the order in which the table lists them (log entry 11). -/
def drillOnsets (step : Nat) : List Nat :=
  match step with
  | 1 => [aFluidLow, aZoneLow 0]
  | 2 => [aGuard, aEncoder]
  | 3 => [aZoneTrip 1, aStoreEcc]
  | 5 => [aBeltStall, aFlashHot]
  | 6 => [aNoBin, aScanner .exit]
  | 7 => [aZoneSensor 2, aFlashCold]
  | _ => []

/-- No halt-class instance is other than IDLE, and the drill step is 0: what LINE_START asks (R71). -/
def startAllowed (s : State) : Bool :=
  (alarm aEstop s).state == .idle && (alarm aIndexFault s).state == .idle && (alarm aBeltStall s).state == .idle &&
  s.alm.drill == 0

/-- Every enabled guard is high (R205). -/
def guardsHigh (s : State) : Bool := (s.prf.line.guardMask &&& ~~~ s.pins.guards) == 0

end Sys2Proof.Machine
end

