-- ==== Sys2Proof/Machine/Units.lean ====
section
/-!
DEFINITION. The operations of ORD on orders, units and the pick queue (R1 to R23), with the image references it
hands IMS (R10) and the bin reports it makes to EXS (R18, R21).
-/

namespace Sys2Proof.Machine

/-! ## Finding -/

/-- The slot and record of the order of an id that is not withdrawn (R1). -/
def orderOf (id : Nat) (s : State) : Option (Nat × Order) :=
  s.ord.orders.find? fun p => p.2.id == id && !p.2.withdrawn

/-- The sum of the quantities of an order's items (R177). -/
def unitTotal (o : Order) : Nat := (o.items.map Item.quantity).sum

/-- The item record of a unit. -/
def itemOf (u : UnitRec) (s : State) : Option Item := (tabGet u.slot s.ord.orders).bind fun o => o.items[u.item]?

/-- The image id that a unit's item names. -/
def unitImage (u : UnitRec) (s : State) : Option Nat := (itemOf u s).map Item.image

/-- The sequence number of the unit at a place of an order. -/
def unitSeq (slot item index : Nat) (s : State) : Option Nat :=
  (s.ord.units.find? fun p => p.2.slot == slot && p.2.item == item && p.2.index == index).map Prod.fst

/-! ## Records -/

def withOrder (slot : Nat) (f : Order → Order) (s : State) : State :=
  s.withOrd fun o => { o with orders := tabMap slot f o.orders }

def withUnit (seq : Nat) (f : UnitRec → UnitRec) (s : State) : State :=
  s.withOrd fun o => { o with units := tabMap seq f o.units }

/-- Raise the count of one unit state. -/
def UnitCounts.add (st : UnitState) (c : UnitCounts) : UnitCounts :=
  match st with
  | .waitImage => { c with waitImage := c.waitImage + 1 }
  | .queued => { c with queued := c.queued + 1 }
  | .inLine => { c with inLine := c.inLine + 1 }
  | .done => { c with done := c.done + 1 }
  | .failed => { c with failed := c.failed + 1 }

/-- Lower the count of one unit state. -/
def UnitCounts.sub (st : UnitState) (c : UnitCounts) : UnitCounts :=
  match st with
  | .waitImage => { c with waitImage := c.waitImage - 1 }
  | .queued => { c with queued := c.queued - 1 }
  | .inLine => { c with inLine := c.inLine - 1 }
  | .done => { c with done := c.done - 1 }
  | .failed => { c with failed := c.failed - 1 }

/-! ## The pick queue -/

/-- REPRINT stands before RUSH, RUSH before NORMAL (R6). -/
def UnitClass.rank : UnitClass → Nat
  | .reprint => 0
  | .rush => 1
  | .normal => 2

/-- `a` stands before `b`: a higher class, or the same class with a lower sequence number (R7). -/
def QueueEntry.before (a b : QueueEntry) : Bool :=
  a.cls.rank < b.cls.rank || (a.cls.rank == b.cls.rank && a.seq < b.seq)

/-- Insert at the place that class and sequence number give (R7). -/
def queueInsert (e : QueueEntry) : List QueueEntry → List QueueEntry
  | [] => [e]
  | h :: t => if h.before e then h :: queueInsert e t else e :: h :: t

/-- Take the unit of a sequence number out; the others keep their order (R7). -/
def queueErase (seq : Nat) (q : List QueueEntry) : List QueueEntry := q.filter fun e => e.seq != seq

/-- ORD hands IMS one reference to an image (R10). -/
def handRef (id : Option Nat) (s : State) : State :=
  match id with
  | some id => withImageId id (fun i => { i with queuedRefs := i.queuedRefs + 1 }) s
  | none => s

/-- ORD takes one reference to an image back (R10). -/
def takeRef (id : Option Nat) (s : State) : State :=
  match id with
  | some id => withImageId id (fun i => { i with queuedRefs := i.queuedRefs - 1 }) s
  | none => s

/-- A unit enters the pick queue and its image gains a reference (R7, R10). -/
def enqueue (seq : Nat) (u : UnitRec) (s : State) : State :=
  handRef (unitImage u s) (s.withOrd fun o => { o with queue := queueInsert { cls := u.cls, seq := seq } o.queue })

/-- A unit leaves the pick queue and its image loses a reference (R7, R10). -/
def dequeue (seq : Nat) (u : UnitRec) (s : State) : State :=
  takeRef (unitImage u s) (s.withOrd fun o => { o with queue := queueErase seq o.queue })

/-! ## Unit changes -/

/-- A unit takes a new state: the counts of its order follow, it leaves or enters the pick queue, and the
order is appended to the notice list (R7, R10, R23). -/
def moveUnit (seq : Nat) (st : UnitState) (s : State) : State :=
  match tabGet seq s.ord.units with
  | none => s
  | some u =>
    let s := if u.state = .queued then dequeue seq u s else s
    let s := withUnit seq (fun u => { u with state := st }) s
    let s := withOrder u.slot (fun o => { o with counts := (o.counts.sub u.state).add st }) s
    let s := if st = .queued then enqueue seq u s else s
    note (.order u.slot) s

/-- A unit is removed: its record returns to the pool (R3), its count falls, and the order is appended to the
notice list. -/
def dropUnit (seq : Nat) (s : State) : State :=
  match tabGet seq s.ord.units with
  | none => s
  | some u =>
    let s := if u.state = .queued then dequeue seq u s else s
    let s := s.withOrd fun o => { o with units := tabErase seq o.units }
    let s := withOrder u.slot (fun o => { o with counts := o.counts.sub u.state }) s
    note (.order u.slot) s

/-- A unit takes a class; a queued one moves to the place R7 gives (R11). -/
def classUnit (seq : Nat) (c : UnitClass) (s : State) : State :=
  match tabGet seq s.ord.units with
  | none => s
  | some u =>
    let s := withUnit seq (fun u => { u with cls := c }) s
    if u.state = .queued then
      s.withOrd fun o => { o with queue := queueInsert { cls := c, seq := seq } (queueErase seq o.queue) }
    else s

/-- The sequence numbers of an order's units, ascending. -/
def unitsOf (slot : Nat) (s : State) : List Nat :=
  (s.ord.units.filter fun p => p.2.slot == slot).map Prod.fst

/-! ## Bins, as ORD's reports reach EXS -/

/-- Set bin `n` and append it to the notice list (R189). -/
def setBin (n : Nat) (b : Bin) (s : State) : State :=
  note (.bin n) (s.withExs fun e => { e with bins := e.bins.set (n - 1) b })

/-- The record of bin `n`. -/
def binAt (n : Nat) (s : State) : Bin := (s.exs.bins[n - 1]?).getD .freed

/-! ## Orders -/

/-- Retire an order (R20): its unit records return to the pool, Withdrawn is set, it is appended. -/
def retire (slot : Nat) (s : State) : State :=
  let s := (unitsOf slot s).foldl (fun t seq =>
    match tabGet seq t.ord.units with
    | some u => if u.state = .queued then dequeue seq u t else t
    | none => t) s
  let s := s.withOrd fun o => { o with units := o.units.filter fun p => p.2.slot != slot }
  let s := withOrder slot (fun o => { o with withdrawn := true }) s
  note (.order slot) s

/-- Retire an order by cancellation: a bin it holds becomes FREE at the report (R21, R189). -/
def retireCancelled (slot : Nat) (s : State) : State :=
  match tabGet slot s.ord.orders with
  | none => s
  | some o =>
    let s := retire slot s
    match o.bin with
    | some b => setBin b .freed s
    | none => s

/-- A garment's unit leaves a CANCELLING order: it is removed, and with no IN_LINE unit left the order is
retired at once (R14, R17). -/
def removeInLine (slot seq : Nat) (s : State) : State :=
  let s := dropUnit seq s
  match tabGet slot s.ord.orders with
  | some o => if o.counts.inLine = 0 then retireCancelled slot s else s
  | none => s

/-- An OPEN order whose units are all DONE becomes COMPLETE: a bin it holds is set COMPLETE, an order with no
bin is retired at once (R15, R18, R189). -/
def completeOrder (slot : Nat) (s : State) : State :=
  match tabGet slot s.ord.orders with
  | none => s
  | some o =>
    if o.state = .open_ ∧ o.counts.done = unitTotal o then
      let s := note (.order slot) (withOrder slot (fun o => { o with state := .complete }) s)
      match o.bin with
      | some b => setBin b { binAt b s with state := .complete } s
      | none => retire slot s
    else s

/-- A reprint is granted below the limit, or the unit and an OPEN order fail (R16). -/
def reprintUnit (slot seq : Nat) (s : State) : State :=
  match tabGet seq s.ord.units with
  | none => s
  | some u =>
    match itemOf u s with
    | none => s
    | some it =>
      if it.reprints < s.prf.line.reprintLimit then
        let s := withOrder slot (fun o =>
          { o with items := listMap u.item (fun i => { i with reprints := i.reprints + 1 }) o.items }) s
        let s := classUnit seq .reprint s
        moveUnit seq (if imageReady it.image s then .queued else .waitImage) s
      else
        let s := moveUnit seq .failed s
        withOrder slot (fun o => { o with state := if o.state = .open_ then .failed else o.state }) s

/-- The sort reports of EXS but RECURE, which leaves the unit IN_LINE and appends nothing (R15). -/
inductive Report where
  | done | reprint | cancelled
deriving DecidableEq, Repr

/-- A sort report for a garment's unit (R15 to R17). -/
def sortReport (r : Report) (g : Garment) (s : State) : State :=
  match orderOf g.order s with
  | none => s
  | some (slot, o) =>
    match unitSeq slot g.item g.index s with
    | none => s
    | some seq =>
      if o.state = .cancelling then removeInLine slot seq s
      else match r with
        | .done => completeOrder slot (moveUnit seq .done s)
        | .reprint => reprintUnit slot seq s
        | .cancelled => s

/-- SKIP of a bound garment (R14): the unit is removed for a CANCELLING order, queued again if its image is
READY and the garment does not carry IMAGE_GONE, and otherwise waits. -/
def skipUnit (g : Garment) (s : State) : State :=
  match orderOf g.order s with
  | none => s
  | some (slot, o) =>
    match unitSeq slot g.item g.index s with
    | none => s
    | some seq =>
      if o.state = .cancelling then removeInLine slot seq s
      else
        let ready := match (tabGet seq s.ord.units).bind (fun u => unitImage u s) with
          | some id => imageReady id s && !(Defect.imageGone ∈ g.defects)
          | none => false
        moveUnit seq (if ready then .queued else .waitImage) s

/-! ## Image reports -/

/-- READY: every WAIT_IMAGE unit that names the image becomes QUEUED, in ascending sequence order (R8). -/
def imageReadyReport (id : Nat) (s : State) : State :=
  s.ord.units.foldl (fun t p =>
    if p.2.state = .waitImage ∧ unitImage p.2 s = some id then moveUnit p.1 .queued t else t) s

/-- DAMAGED: every QUEUED unit that names the image becomes WAIT_IMAGE (R9). The model's choice: the orders are appended
in ascending sequence number of their units (log entry 11). -/
def imageDamagedReport (id : Nat) (s : State) : State :=
  s.ord.units.foldl (fun t p =>
    if p.2.state = .queued ∧ unitImage p.2 s = some id then moveUnit p.1 .waitImage t else t) s

/-- Deletion changes no unit (R9). -/
def imageDeletedReport (_id : Nat) (s : State) : State := s

/-! ## Entry -/

/-- The next sequence number: the counter advances past every value held by a unit record in use (R3). -/
def nextSeq (units : List (Nat × UnitRec)) : Nat → Nat → Nat
  | 0, c => (c + 1) % 4294967296
  | fuel + 1, c =>
    let c := (c + 1) % 4294967296
    if (tabGet c units).isSome then nextSeq units fuel c else c

/-- Create one unit of an order just entered (R5). -/
def addUnit (slot item index : Nat) (cls : UnitClass) (image : Nat) (s : State) : State :=
  let seq := nextSeq s.ord.units Config.unitRecords s.ord.seq
  let ready := imageReady image s
  let st : UnitState := if ready then .queued else .waitImage
  let u : UnitRec := { slot := slot, item := item, index := index, cls := cls, state := st }
  let s := s.withOrd fun o => { o with units := tabSet seq u o.units, seq := seq }
  let s := withOrder slot (fun o => { o with counts := o.counts.add st }) s
  if ready then enqueue seq u s else s

/-- Create the units of an order in item order, and within an item in unit index order (R5). -/
def addUnits (slot : Nat) (cls : UnitClass) (items : List Item) (s : State) : State :=
  (items.zipIdx.flatMap fun p => (List.range p.1.quantity).map fun k => (p.2, k, p.1.image)).foldl
    (fun t q => addUnit slot q.1 q.2.1 cls q.2.2 t) s

end Sys2Proof.Machine
end

