-- ==== Sys2Proof/Machine/Store.lean ====
section
/-!
DEFINITION. The operations of IMS: the three places of a page (R25), allocation (R31), the coverage scan (R38 to
R40), error correction (R45, R46) and removal (R44).
-/

namespace Sys2Proof.Machine

/-! ## Pages -/

/-- R, the number of reserve pages of a fraction (R25). -/
def Reserve.pages : Reserve → Nat
  | .zero => 0
  | .sixteenth => 512
  | .eighth => 1024
  | .quarter => 2048
  | .half => 4096

/-- The pages of a band-plane list. -/
def pagesOf (planes : List Plane) : List Nat :=
  planes.filterMap fun
    | .page n _ => some n
    | _ => none

/-- The pages that images own; a removed image owns none (R25, R44). -/
def ownedPages (s : State) : List Nat :=
  s.ims.images.flatMap fun p => if p.2.removed then [] else pagesOf p.2.planes

/-- The free pages from `lo` up to but not including `hi`, ascending: those neither owned nor retired, so that a
page is always in exactly one of its three places (R25). -/
def freePages (lo hi : Nat) (s : State) : List Nat :=
  let taken := ownedPages s ++ s.ims.retired
  ((List.range (hi - lo)).map (lo + ·)).filter fun n => !taken.contains n

/-- The first page of the reserve range of a fraction (R25). -/
def reserveFrom (r : Reserve) : Nat := Config.storePages - r.pages

def freeOrdinary (s : State) : List Nat := freePages 0 (reserveFrom s.prf.line.reserve) s
def freeReserve (s : State) : List Nat := freePages (reserveFrom s.prf.line.reserve) Config.storePages s

/-- The pages an open may take, lowest ordinary first, then for a RUSH image lowest reserve first (R31). -/
def pageSupply (rush : Bool) (s : State) : List Nat :=
  if rush then freeOrdinary s ++ freeReserve s else freeOrdinary s

/-- Every page of the new reserve range is free, retired or owned by a RUSH image (R26). -/
def reserveFits (r : Reserve) (s : State) : Bool :=
  s.ims.images.all fun p =>
    p.2.removed || p.2.rush || (pagesOf p.2.planes).all fun n => n < reserveFrom r

/-- Insert a page number into the retired set, ascending with no duplicates (R25). -/
def retireIn (n : Nat) : List Nat → List Nat
  | [] => [n]
  | h :: t => if n < h then n :: h :: t else if n = h then h :: t else h :: retireIn n t

/-- Set entry `k` of an image's band-plane list. -/
def setPlane (slot k : Nat) (p : Plane) (s : State) : State :=
  withImage slot (fun i => { i with planes := i.planes.set k p }) s

/-- A page read with a corrected word raises the corrected-error count (R45). -/
def countCorrected (s : State) : State :=
  s.withIms fun i => { i with corrected := satAdd 65535 1 i.corrected }

/-- An uncorrectable read: the page is retired, its entry LOST, and STORE_ECC has one onset (R46). -/
def losePage (slot k n : Nat) (s : State) : State :=
  onset aStoreEcc true (setPlane slot k .lost (s.withIms fun i => { i with retired := retireIn n i.retired }))

/-- Remove an image (R44). -/
def removeImage (slot : Nat) (s : State) : State :=
  note (.image slot) (withImage slot (fun i => { i with removed := true }) s)

/-! ## Coverage (R40) -/

/-- A coverage record of zeros. -/
def Coverage.zero : Coverage := { units := List.replicate 5 0, cells := List.replicate 104 { white := 0, colour := 0 } }

/-- The total units (R40). -/
def Coverage.total (c : Coverage) : Nat := c.units.sum

/-- ink_k (R40). -/
def Coverage.inkK (c : Coverage) : Nat := c.total / 1024

/-- The units of cell (lane, row) (R40). -/
def Coverage.cell (c : Coverage) (lane row : Nat) : Cell := (c.cells[lane * 13 + row]?).getD { white := 0, colour := 0 }

/-- The drop values of dots `lo` to `hi - 1` of line `y` of a plane, added up. -/
def sumDots (stride : Nat) (plane : List Byte) (y lo hi : Nat) : Nat :=
  ((List.range (hi - lo)).map fun k => dotOf stride plane y (lo + k)).sum

/-- The units that band `b` of an image adds to the cell (lane, row): dot (x, y) of the image lies at platen
position (X0 + x, Y0 + y), in lane ⌊(X0 + x) / 600⌋ and row ⌊(Y0 + y) / 480⌋ (R40). -/
def planeCell (i : Image) (b : Nat) (plane : List Byte) (lane row : Nat) : Nat :=
  ((List.range (bandLines i.h b)).map fun y =>
    if (i.y0 + 48 * b + y) / 480 = row then
      sumDots (lineBytes i.w) plane y (600 * lane - i.x0) (min i.w (600 * (lane + 1) - i.x0))
    else 0).sum

/-- The units of a whole band-plane; padding does not count (R24, R40). -/
def planeUnits (i : Image) (b : Nat) (plane : List Byte) : Nat :=
  ((List.range (bandLines i.h b)).map fun y => sumDots (lineBytes i.w) plane y 0 i.w).sum

/-- Add a band-plane of channel `ch` to the sums: W counts as white, the others as colour (R40). -/
def Coverage.add (c : Coverage) (i : Image) (ch b : Nat) (plane : List Byte) : Coverage :=
  { units := listMap ch (· + planeUnits i b plane) c.units,
    cells := c.cells.zipIdx.map fun p =>
      let u := planeCell i b plane (p.2 / 13) (p.2 % 13)
      if ch = 0 then { p.1 with white := p.1.white + u } else { p.1 with colour := p.1.colour + u } }

/-! ## The coverage scan -/

/-- Channel and band of entry `k` of an image's band-plane list (R28). -/
def entryAt (i : Image) (k : Nat) : Nat × Nat :=
  (((channelsIn i.channels)[k / bandsOf i.h]?).getD 0, k % bandsOf i.h)

/-- The first PAGE entry at or after entry `k`: the scan passes over the others (R38). -/
def nextPage (planes : List Plane) (k : Nat) : Option Nat :=
  (List.range planes.length).find? fun j => k ≤ j && match planes[j]? with
    | some (.page _ _) => true
    | _ => false

/-- The completion of a scan (R39). -/
def completeScan (c : Scan) (s : State) : State :=
  let s := s.withIms fun i => { i with scan := none, scanQueue := i.scanQueue.filter (· != c.slot) }
  match tabGet c.slot s.ims.images with
  | none => s
  | some i =>
    if c.bad then
      note (.image c.slot) (imageDamagedReport i.id (withImage c.slot (fun i => { i with state := .damaged }) s))
    else
      note (.image c.slot) (imageReadyReport i.id
        (withImage c.slot (fun i => { i with state := .ready, coverage := some c.sums }) s))

/-- Bring the scan to its next page read: begin on the image at the front of the scan queue when none runs, pass
over BLANK entries, and complete a scan whose every entry has been passed, then go on with the next image
(R37 to R39). `fuel` bounds the scans begun and completed. -/
def runScan : Nat → State → State
  | 0, s => s
  | fuel + 1, s =>
    match s.ims.scan with
    | none =>
      match s.ims.scanQueue with
      | [] => s
      | slot :: _ => runScan fuel (s.withIms fun i =>
          { i with scan := some { slot := slot, entry := 0, sums := .zero, bad := false } })
    | some c =>
      match nextPage (((tabGet c.slot s.ims.images).map Image.planes).getD []) c.entry with
      | some k => s.withIms fun i => { i with scan := some { c with entry := k } }
      | none => runScan fuel (completeScan c s)

/-- Bring the scan to its next page read, with fuel for every waiting image (R38). -/
def advanceScan (s : State) : State := runScan (2 * s.ims.scanQueue.length + 2) s

/-- A page read of the scan ends (R38). -/
def scanRead (r : ReadResult) (s : State) : State :=
  match s.ims.scan with
  | none => s
  | some c =>
    match tabGet c.slot s.ims.images with
    | none => s
    | some i =>
      match i.planes[c.entry]? with
      | some (.page n _) =>
        let e := entryAt i c.entry
        let plane := pageRead s.ims.store n (planeSize i.w i.h e.2)
        let good : Scan := { c with entry := c.entry + 1, sums := c.sums.add i e.1 e.2 plane }
        let s := match r with
          | .clean => s.withIms fun m => { m with scan := some good }
          | .corrected => countCorrected (s.withIms fun m => { m with scan := some good })
          | .uncorrectable => losePage c.slot c.entry n (s.withIms fun m =>
              { m with scan := some { c with entry := c.entry + 1, bad := true } })
        advanceScan s
      | _ => s

/-- A CLOSING image leaves the scan queue, its scan abandoned if it runs (R38, R42). -/
def dropScan (slot : Nat) (s : State) : State :=
  s.withIms fun i => { i with
    scanQueue := i.scanQueue.filter (· != slot),
    scan := match i.scan with
      | some c => if c.slot = slot then none else some c
      | none => none }

end Sys2Proof.Machine
end

