-- ==== Sys2Proof/Machine/Tunnel.lean ====
section
/-!
DEFINITION. The operations of CTC: heat, dose, belt speed and the admission test (R144 to R166).
-/

namespace Sys2Proof.Machine

/-! ## Garments on the belt -/

/-- The belt position in mm (R144). -/
def Rider.mm (r : Rider) : Nat := r.travel / 10

/-- The rider stands in the heated part (R144). -/
def Rider.heated (r : Rider) : Bool := r.mm < 3000

/-- Write a rider's position into its garment record (R144). -/
def writeBelt (r : Rider) (s : State) : State :=
  withGarment r.serial (fun g => { g with location := .belt r.mm }) s

/-- A garment joins the back of the tunnel list at 0 mm with stage IN_TUNNEL (R145, R164, R165). -/
def placeOnBelt (serial : Nat) (s : State) : State :=
  let s := s.withCtc fun c => { c with tunnel := c.tunnel ++ [{ serial := serial, travel := 0 }] }
  writeBelt { serial := serial, travel := 0 } (setStage serial .inTunnel s)

/-! ## Heat -/

/-- The record of zone `z`, 0..2. -/
def zoneAt (z : Nat) (s : State) : Zone :=
  (s.ctc.zones[z]?).getD { reading := 0, faulted := true, duty := 0, tripBegin := 0, tripEnd := 0, lowBegin := 0, lowEnd := 0 }

/-- The excess of zone `z` over a threshold (R146): 0 while the reading is faulted. -/
def excess (z tTh : Nat) (s : State) : Nat := if (zoneAt z s).faulted then 0 else (zoneAt z s).reading - tTh

/-- The length of zone `z` still ahead of position `p` (R154). -/
def lengthAhead (z p : Nat) : Nat := if p < 1000 * z then 1000 else 1000 * (z + 1) - p

/-- The remaining exposure of a garment at position `p` (R154). -/
def exposure (g : Garment) (p : Nat) (s : State) : Nat :=
  excess 0 g.profile.tTh s * lengthAhead 0 p + excess 1 g.profile.tTh s * lengthAhead 1 p +
  excess 2 g.profile.tTh s * lengthAhead 2 p

/-! ## Speed -/

/-- A speed pair (R155): the lower bound, and the upper bound where there is one. -/
structure Pair where
  lo : Nat
  hi : Option Nat
deriving DecidableEq, Repr

/-- The speed pair of a garment at position `p`; `none` when it is excluded (R155). -/
def pairOf (g : Garment) (p : Nat) (s : State) : Option Pair :=
  let e := exposure g p s
  if g.dMax ≤ g.d then none
  else if g.dReq ≤ g.d then some { lo := ceilDiv (100 * e) (g.dMax - g.d), hi := none }
  else if e = 0 then some { lo := 0, hi := some 0 }
  else some { lo := ceilDiv (100 * e) (g.dMax - g.d), hi := some (100 * e / (g.dReq - g.d)) }

/-- The pairs of the tunnel list members in the heated part (R156, R163). -/
def memberPairs (s : State) : List Pair :=
  s.ctc.tunnel.filterMap fun r =>
    if r.heated then (garment r.serial s).bind fun g => pairOf g r.mm s else none

/-- The pair of the entrant, considered at 0 mm while the transfer holds the gate (R156, R164). -/
def entrantPairs (s : State) : List Pair :=
  match s.ctc.entrant.bind fun n => (garment n s).bind fun g => pairOf g 0 s with
  | some p => [p]
  | none => []

/-- The least upper bound of pairs, not above `top`; pairs with no upper bound set none. -/
def leastHi (top : Nat) (ps : List Pair) : Nat := ps.foldl (fun m p => match p.hi with
  | some h => min m h
  | none => m) top

/-- The greatest lower bound of pairs, not below `bottom`. -/
def greatestLo (bottom : Nat) (ps : List Pair) : Nat := ps.foldl (fun m p => max m p.lo) bottom

/-- The selected belt speed (R156): a garment that has its D_req sets no upper bound, so the least s_hi over those
that lack it, clamped to the range, is the least upper bound not above s_max, raised to s_min. -/
def selectSpeed (s : State) : Nat :=
  max s.prf.cure.sMin (leastHi s.prf.cure.sMax (memberPairs s ++ entrantPairs s))

/-- CTC computes the selected speed (R156). -/
def recomputeSpeed (s : State) : State := s.withCtc fun c => { c with selected := selectSpeed s }

/-- The commanded belt speed (R157). -/
def commandedSpeed (s : State) : Nat := if lineWarm s then s.ctc.selected else 0

/-- The belt stall timer follows the commanded speed: it starts afresh when the belt starts, and stops while the
command is 0 (R158). -/
def syncBelt (s : State) : State :=
  s.withCtc fun c => { c with
    stallFrom := if commandedSpeed s = 0 then none else if c.stallFrom.isSome then c.stallFrom else some s.clock }

/-! ## Admission -/

/-- The result of an admission test (R163). -/
inductive Admission where
  | fails (why : Hold)
  | admitted (range : Bool)
deriving DecidableEq, Repr

/-- The admission test of a claimant (R163); `admitted true` is admission with CURE_RANGE. -/
def admission (serial : Nat) (s : State) : Admission :=
  if Config.tunnelCapacity ≤ s.ctc.tunnel.length then .fails .tunnelFull
  else if (match s.ctc.tunnel.getLast? with
      | some r => decide (r.mm < Config.spacingMm)
      | none => false) then .fails .spacing
  else
    let own := match (garment serial s).bind fun g => pairOf g 0 s with
      | some p => [p]
      | none => []
    let ps := own ++ memberPairs s
    if greatestLo s.prf.cure.sMin ps ≤ leastHi s.prf.cure.sMax ps then .admitted false
    else if s.ctc.tunnel.any Rider.heated then .fails .cureWait
    else .admitted true

/-- The warning CURE_RANGE at an admission: the garment is appended to the notice list (R166). -/
def warnRange (serial : Nat) (range : Bool) (s : State) : State :=
  if range then note (.garment serial) (addWarning serial .cureRange s) else s

/-- D_req and D_max at binding, and whether D_req is cut to D_max (R152). -/
def doseLimits (p : Profile) (inkK : Nat) : Nat × Nat × Bool :=
  let need := p.dBase + inkK * p.kInk / 256
  (min need p.dMax, p.dMax, p.dMax ≤ need)

/-! ## Zones -/

/-- The heater duty of a zone by its reading (R148). -/
def dutyOf (c : CureSettings) (tSet reading : Nat) : Nat := clamp c.dMin c.dMax (c.gain * (tSet - reading) / 10)

/-- The set point of zone `z`. -/
def tSetAt (z : Nat) (s : State) : Nat := (s.prf.cure.tSet[z]?).getD 0

/-- Change zone `z`. -/
def withZone (z : Nat) (f : Zone → Zone) (s : State) : State :=
  s.withCtc fun c => { c with zones := listMap z f c.zones }

/-- One run of samples (R150, R151): while the condition is absent, `begins` raises the begin count; while it is
present, `ends` raises the end count; any other sample sets the count to 0. The answer is the two counts and the
condition after the sample. The model's choice: a ZONE_LOW that ends leaves both counts at 0, as R150 says of ZONE_TRIP
(log entry 39). -/
def runCounts (n : Nat) (present begins ends : Bool) (b e : Nat) : Nat × Nat × Bool :=
  if present then
    let e := if ends then satAdd 255 1 e else 0
    if 3 ≤ e then (0, 0, false) else (b, e, true)
  else
    let b := if begins then satAdd 255 1 b else 0
    if b ≠ 0 ∧ n ≤ b then (0, 0, true) else (b, e, false)

/-- ZONE_TRIP of zone `z` at a sample (R150). -/
def superviseTrip (z : Nat) (s : State) : State :=
  let k := zoneAt z s
  if k.faulted then withZone z (fun k => { k with tripBegin := 0, tripEnd := 0 }) s
  else
    let r := runCounts s.prf.cure.samples (alarm (aZoneTrip z) s).present (s.prf.cure.tTrip < k.reading)
      (k.reading < tSetAt z s) k.tripBegin k.tripEnd
    reportCondition (aZoneTrip z) r.2.2 (withZone z (fun k => { k with tripBegin := r.1, tripEnd := r.2.1 }) s)

/-- ZONE_LOW of zone `z` at a sample (R151): in IDLE and HALTED both counts are set to 0. -/
def superviseLow (z : Nat) (s : State) : State :=
  let k := zoneAt z s
  if k.faulted || !lineWarm s then withZone z (fun k => { k with lowBegin := 0, lowEnd := 0 }) s
  else
    let low := k.reading < tSetAt z s - s.prf.cure.band
    let r := runCounts s.prf.cure.samples (alarm (aZoneLow z) s).present low (!low) k.lowBegin k.lowEnd
    reportCondition (aZoneLow z) r.2.2 (withZone z (fun k => { k with lowBegin := r.1, lowEnd := r.2.1 }) s)

/-- CTC reads zone `z`: a converter fault or a reading above 3,000 is faulted (R146), the ZONE_SENSOR condition
(R147). -/
def readZone (z : Nat) (r : Reading) (s : State) : State :=
  let bad := r.fault || decide (3000 < r.raw)
  reportCondition (aZoneSensor z) bad (withZone z (fun k => { k with reading := r.raw, faulted := bad }) s)

/-- Zone supervision of one zone at a sample (R146 step 1). The model's choice: within a zone the alarm references are
appended in the order ZONE_SENSOR, ZONE_TRIP, ZONE_LOW (R202; log entry 11). -/
def superviseZone (z : Nat) (r : Reading) (s : State) : State := superviseLow z (superviseTrip z (readZone z r s))

/-- Neither instance of the zone is held not IDLE (R147, R149). -/
def zoneHeld (z : Nat) (s : State) : Bool := !(ownerIdle (aZoneSensor z) s && ownerIdle (aZoneTrip z) s)

/-- The duty applied to a zone at a sample (R148, R149). `before` is the state as the sample found it: an instance
that becomes IDLE at this sample lets the heater run from the next one. -/
def driveZone (before : State) (z : Nat) (s : State) : State :=
  let k := zoneAt z s
  let off := !lineWarm s || k.faulted || zoneHeld z before || zoneHeld z s
  withZone z (fun k => { k with duty := if off then 0 else dutyOf s.prf.cure (tSetAt z s) k.reading }) s

/-- Dose accrual: every garment in the heated part gains the excess of its zone (R153). -/
def accrue (s : State) : State :=
  s.ctc.tunnel.foldl (fun t r =>
    if r.heated then
      withGarment r.serial (fun g => { g with d := satAdd 4000000000 (excess (r.mm / 1000) g.profile.tTh s) g.d }) t
    else t) s

/-- The sample count: a tenth sample recomputes the speed (R146). -/
def countSample (s : State) : State :=
  if s.ctc.sampleCount + 1 < 10 then s.withCtc fun c => { c with sampleCount := c.sampleCount + 1 }
  else recomputeSpeed (s.withCtc fun c => { c with sampleCount := 0 })

end Sys2Proof.Machine
end

