-- ==== Sys2Proof/Machine/Spray.lean ====
section
/-!
DEFINITION. The operations of PTR at PRETREAT: the spray schedule (R89 to R93), the fluid test (R94), the traverse
(R96, R97) and what a halt and a resume do to it (R98).
-/

namespace Sys2Proof.Machine

/-! ## The schedule -/

/-- W_row in valve units (R89). -/
def rowWindow (speed : Nat) : Nat := 400000 / speed

/-- d_lane of every lane in valve units (R89). -/
def laneDelaysOf (l : LineSettings) : List Nat := l.laneDelays.map (· * (l.laneMult + 1))

/-- The ratio p of a cell in ‰ (R91). -/
def cellRatio (b : Basis) (c : Cell) : Nat :=
  match b with
  | .none => 0
  | .white => c.white * 1000 / 864000
  | .all => (c.white + c.colour) * 1000 / 4320000

/-- The time t of a cell whose lane has delay `d` (R92). -/
def cellTime (p : Profile) (window d : Nat) (c : Cell) : Nat :=
  let ratio := cellRatio p.basis c
  if ratio < p.pFloor then 0
  else if window ≤ d then 0
  else min (max (p.tBase + p.tGain * ratio / 1000) p.tMin) (min p.tMax (window - d))

/-- The spray schedule of a garment (R93). -/
def scheduleOf (p : Profile) (cov : Coverage) (l : LineSettings) : Schedule :=
  let window := rowWindow l.barSpeed
  let delays := laneDelaysOf l
  let times := (List.range 104).map fun k =>
    cellTime p window ((delays[k / 13]?).getD 0) (cov.cell (k / 13) (k % 13))
  { times := times, speed := l.barSpeed, window := window, delays := delays, flow := l.flow,
    fluid := times.sum * l.flow }

/-- The cell time of a lane in a row. -/
def Schedule.time (c : Schedule) (lane row : Nat) : Nat := (c.times[lane * 13 + row]?).getD 0

/-- The valves at the start of a row window: a valve whose cell time is 0 does not open (R96). -/
def Schedule.rowValves (c : Schedule) (row : Nat) : List Valve :=
  (List.range 8).map fun lane => if c.time lane row = 0 then .closed else .waiting

/-- Every valve closed. -/
def closedValves : List Valve := List.replicate 8 .closed

/-- The coverage record of a garment's image (R90). -/
def coverageOf (g : Garment) (s : State) : Coverage :=
  match g.image.bind fun id => (imageOf id s).bind fun p => p.2.coverage with
  | some c => c
  | none => .zero

/-! ## Fluid -/

/-- The tank setting in µg: 1 g is 1,000,000 µg (R94). -/
def micrograms (grams : Nat) : Nat := grams * 1000000

/-- The fluid test of the kept schedule (R94). The model's choice: the line, for the hold reason, is appended before
FLUID_LOW (log entry 11). -/
def fluidTest (s : State) : State :=
  match s.ptr.schedule with
  | none => s
  | some c =>
    if c.fluid + micrograms s.prf.line.tankReserve ≤ s.ptr.tank then
      reportCondition aFluidLow false (setHold .pretreat .none (s.withPtr fun p => { p with job := .waiting }))
    else
      reportCondition aFluidLow true (setHold .pretreat .fluidLow (s.withPtr fun p => { p with job := .held }))

/-- The test is made only while the garment's traverse has not begun (R94). -/
def retestFluid (s : State) : State :=
  match s.ptr.job with
  | .held | .waiting => fluidTest s
  | _ => s

/-- The garment's pretreat dose in mg, saturating (R93). -/
def doseMg (ug : Nat) : Nat := min 65535 (ug / 1000)

/-! ## Arrival, traverse and return -/

/-- PTR has finished with a garment at PRETREAT (R66). -/
def finishPretreat (serial : Nat) (s : State) : State :=
  release .pretreat (setStage serial .pretreated (s.withPtr fun p => { p with job := .none, schedule := none }))

/-- A platen arrives at PRETREAT with a garment (R90). -/
def pretreatArrival (serial : Nat) (s : State) : State :=
  match garment serial s with
  | none => s
  | some g =>
    let c := scheduleOf g.profile (coverageOf g s) s.prf.line
    if g.profile.basis = .none ∨ Defect.imageGone ∈ g.defects ∨ c.times.all (· == 0) = true then
      finishPretreat serial (withGarment serial (fun g => { g with dose := 0 }) s)
    else fluidTest (s.withPtr fun p => { p with schedule := some c })

/-- The traverse begins at the first event at which the test has passed, the line moves and the bar is PARKED
(R96). -/
def startTraverse (s : State) : State :=
  match s.ptr.schedule with
  | none => s
  | some c =>
    if s.ptr.job = .waiting ∧ lineMoves s = true ∧ s.ptr.bar = .parked then
      s.withPtr fun p => { p with
        bar := .out, barTravel := 0, barFrom := some s.clock, job := .spraying, row := 0, valves := c.rowValves 0 }
    else s

/-- A valve's delay expires: it opens (R89). -/
def openValve (lane : Nat) (s : State) : State :=
  if s.ptr.job = .spraying ∧ s.ptr.valves[lane]? = some .waiting then
    s.withPtr fun p => { p with valves := p.valves.set lane (.open_ s.clock) }
  else s

/-- A valve's cell time expires: it closes (R96). -/
def closeValve (lane : Nat) (s : State) : State :=
  match s.ptr.job, s.ptr.valves[lane]? with
  | .spraying, some (.open_ _) => s.withPtr fun p => { p with valves := p.valves.set lane .closed }
  | _, _ => s

/-- The fluid leaves the tank, and the dose is written (R97, R98). -/
def spend (serial ug : Nat) (s : State) : State :=
  withGarment serial (fun g => { g with dose := doseMg ug }) (s.withPtr fun p => { p with tank := p.tank - ug })

/-- The traverse's end (R97): the bar turns BACK, and its return takes 13 × W_row valve units of 100 µs. -/
def endTraverse (s : State) : State :=
  match s.ptr.schedule, garmentAt .pretreat s with
  | some c, some n =>
    if s.ptr.job = .spraying then
      finishPretreat n (spend n c.fluid (s.withPtr fun p => { p with
        bar := .back, barTravel := 13 * c.window * 100, barFrom := some s.clock, row := 0, valves := closedValves }))
    else s
  | _, _ => s

/-- The end of a row window: the next row's window starts, and the end of row 12's is the traverse's end (R96). -/
def endRow (s : State) : State :=
  match s.ptr.schedule with
  | none => s
  | some c =>
    if s.ptr.job = .spraying then
      if s.ptr.row < 12 then s.withPtr fun p => { p with row := p.row + 1, valves := c.rowValves (p.row + 1) }
      else endTraverse s
    else s

/-- The return's end: the bar is PARKED, and a garment whose traverse has not begun is tested again (R94, R96).
A bar that a halt has stopped does not reach its start. -/
def parkBar (s : State) : State :=
  if s.ptr.bar = .back ∧ s.ptr.barFrom.isSome = true then
    retestFluid (s.withPtr fun p => { p with bar := .parked, barTravel := 0, barFrom := none })
  else s

/-! ## Halt and resume -/

/-- The valve units lane `lane` has sprayed so far in a traverse, its open valve counted up to now (R98). -/
def laneSprayed (c : Schedule) (lane : Nat) (s : State) : Nat :=
  ((List.range s.ptr.row).map (c.time lane)).sum +
    match s.ptr.valves[lane]? with
    | some (.open_ since) => min (c.time lane s.ptr.row) (elapsed since 100 s)
    | some .closed => c.time lane s.ptr.row
    | _ => 0

/-- The fluid sprayed so far in a traverse in µg (R98). -/
def sprayedSoFar (c : Schedule) (s : State) : Nat := ((List.range 8).map fun lane => laneSprayed c lane s).sum * c.flow

/-- The bar stops where it stands: outward motion adds to its travel, return motion takes from it (R98). -/
def stopBar (s : State) : State :=
  match s.ptr.bar, s.ptr.barFrom with
  | .out, some t => s.withPtr fun p => { p with barTravel := p.barTravel + (s.clock - t), barFrom := none }
  | .back, some t => s.withPtr fun p => { p with barTravel := p.barTravel - (s.clock - t), barFrom := none }
  | _, _ => s

/-- PTR at the entry to HALTED, at PRETREAT (R98). -/
def haltPretreat (s : State) : State :=
  match s.ptr.job, s.ptr.schedule, garmentAt .pretreat s with
  | .spraying, some c, some n =>
    stopBar (addDefect n .pretreatAborted (spend n (sprayedSoFar c s)
      (s.withPtr fun p => { p with job := .cut, schedule := none, row := 0, valves := closedValves })))
  | _, _, _ => stopBar s

/-- PTR at the line resume, at PRETREAT (R98). -/
def resumePretreat (s : State) : State :=
  let s := if s.ptr.bar ≠ .parked ∧ s.ptr.barFrom = none then
      s.withPtr fun p => { p with bar := .back, barFrom := some s.clock } else s
  match s.ptr.job, garmentAt .pretreat s with
  | .cut, some n => finishPretreat n s
  | _, _ => retestFluid s

end Sys2Proof.Machine
end

