-- ==== Sys2Proof/Machine/Press.lean ====
section
/-!
DEFINITION. The operations of PTR at FLASH: the work of a garment, the cold and hot waits, the press and the press
heater (R100 to R106).
-/

namespace Sys2Proof.Machine

/-- The latest reading is above `top`, or faulted (R101). -/
def tooHot (top : Nat) (s : State) : Bool := s.ptr.flashFaulted || decide (top < s.ptr.flashReading)

/-- The garment at FLASH that has a dwell above 0 s and has not yet been pressed (R103). -/
def unpressed (s : State) : Option (Nat × Garment) :=
  match s.car.flash.working, s.ptr.flashJob, garmentAt .flash s with
  | true, .none, some n | true, .cold, some n | true, .hot, some n =>
    match garment n s with
    | some g => if g.profile.dwell = 0 then none else some (n, g)
    | none => none
  | _, _, _ => none

/-- The FLASH_HOT condition as it now stands (R103). -/
def flashHot (s : State) : Bool :=
  match unpressed s with
  | some (_, g) => tooHot g.profile.tfMax s
  | none => false

/-- The press closes (R104). -/
def closePress (s : State) : State :=
  setHold .flash .none (s.withPtr fun p =>
    { p with pressClosed := true, flashJob := .pressing, waitFrom := none, dwellFrom := some s.clock })

/-- PTR has finished with a garment at FLASH (R66, R104). -/
def finishFlash (serial : Nat) (s : State) : State :=
  release .flash (setStage serial .flashed (s.withPtr fun p =>
    { p with flashJob := .none, waitFrom := none, dwellFrom := none }))

/-- Write the flash dwell achieved. -/
def setDwell (serial seconds : Nat) (s : State) : State := withGarment serial (fun g => { g with dwell := seconds }) s

/-- The hot wait begins (R103). -/
def beginHot (s : State) : State :=
  setHold .flash .flashHot (s.withPtr fun p => { p with flashJob := .hot, waitFrom := none })

/-- The cold wait begins with a fresh timer and the wait limit as it stands (R102). -/
def beginCold (s : State) : State :=
  setHold .flash .preheat (s.withPtr fun p =>
    { p with flashJob := .cold, waitFrom := some s.clock, waitLimit := s.prf.line.flashWait })

/-- PTR decides the work of the garment at FLASH from the latest reading (R101). The model's choice: at a hot wait the
line, for the hold reason, is appended before FLASH_HOT, and elsewhere FLASH_HOT's end before the line (log entry 11).
-/
def decideFlash (s : State) : State :=
  match unpressed s with
  | none => s
  | some (_, g) =>
    if tooHot g.profile.tfMax s then reportCondition aFlashHot true (beginHot s)
    else
      let s := reportCondition aFlashHot false s
      if s.ptr.flashReading < g.profile.tfMin then beginCold s else closePress s

/-- A platen arrives at FLASH with a garment (R101). -/
def flashArrival (serial : Nat) (s : State) : State :=
  match garment serial s with
  | none => s
  | some g => if g.profile.dwell = 0 then finishFlash serial (setDwell serial 0 s) else decideFlash s

/-- FLASH_HOT has become IDLE, or its condition has ended while it is IDLE: the hot wait ends and PTR decides again (R103).
In HALTED the garment stays HOT and the resume decides it (R105). The model's choice: that holds also for a wait whose
FLASH_HOT was IDLE before the halt (EDGE, acknowledged) and whose condition ends at a sample in HALTED, which R103 ends at
that sample and R105 lets stay (log entry 42). -/
def endHotWait (s : State) : State :=
  if s.ptr.flashJob = .hot ∧ ownerIdle aFlashHot s = true then
    if s.car.line = .halted then s.withPtr fun p => { p with hotOver := true } else decideFlash s
  else s

/-- The press heater at a sample (R100). -/
def heaterAt (s : State) : Bool :=
  match s.ptr.target with
  | some (lo, hi) => lineWarm s && !s.ptr.flashFaulted && decide (s.ptr.flashReading < (lo + hi) / 2)
  | none => false

/-- What a sample does to a waiting garment (R102, R103): a reading below T_fmin continues a cold wait, and a hot wait
whose instance is IDLE ends when the condition has ended (in HALTED: `endHotWait`, log entry 42). -/
def flashWaitSample (s : State) : State :=
  match s.ptr.flashJob, unpressed s with
  | .cold, some (_, g) =>
    if !tooHot g.profile.tfMax s && decide (s.ptr.flashReading < g.profile.tfMin) then s else decideFlash s
  | .hot, some _ => if flashHot s then s else endHotWait s
  | _, _ => s

/-- A flash sample (R100). The model's choice: FLASH_HOT is appended before the line, for a hold reason that changes
(log entry 11). -/
def sampleFlash (r : Reading) (s : State) : State :=
  let s := s.withPtr fun p => { p with flashReading := r.raw, flashFaulted := r.fault || decide (3000 < r.raw) }
  let s := s.withPtr fun p => { p with heater := heaterAt s }
  flashWaitSample (reportCondition aFlashHot (flashHot s) s)

/-- The wait limit expires: the press closes, UNDERDRIED, and FLASH_COLD has one onset (R102). -/
def expireFlashWait (s : State) : State :=
  match s.ptr.flashJob, garmentAt .flash s with
  | .cold, some n => onset aFlashCold true (closePress (addWarning n .underdried s))
  | _, _ => s

/-- The dwell expires (R104). -/
def expireDwell (s : State) : State :=
  match s.ptr.flashJob, garmentAt .flash s with
  | .pressing, some n =>
    match garment n s with
    | some g => finishFlash n (setDwell n g.profile.dwell (s.withPtr fun p => { p with pressClosed := false }))
    | none => s
  | _, _ => s

/-- PTR at the entry to HALTED, at FLASH (R105): a hot wait stays, and what it sees of FLASH_HOT in this halt begins anew.
-/
def haltFlash (s : State) : State :=
  match s.ptr.flashJob, garmentAt .flash s with
  | .pressing, some n =>
    match garment n s, s.ptr.dwellFrom with
    | some g, some t =>
      let got := min g.profile.dwell (elapsed t 1000000 s)
      let s := setDwell n got (s.withPtr fun p =>
        { p with pressClosed := false, flashJob := .cut, dwellFrom := none })
      if got < g.profile.dwell then addWarning n .underdried s else s
    | _, _ => s
  | .cold, _ => setHold .flash .none (s.withPtr fun p => { p with flashJob := .none, waitFrom := none })
  | .hot, _ => s.withPtr fun p => { p with hotOver := false }
  | _, _ => s

/-- PTR at the line resume, at FLASH (R105): a HOT garment whose FLASH_HOT became IDLE during the halt is decided again,
also where FLASH_HOT had a new onset after that. -/
def resumeFlash (s : State) : State :=
  match s.ptr.flashJob, garmentAt .flash s with
  | .cut, some n => finishFlash n s
  | .none, some _ => decideFlash s
  | .hot, some _ => if s.ptr.hotOver then decideFlash s else s
  | _, _ => s

/-- The target window after the platens have moved (R100). -/
def takeTarget (s : State) : State :=
  let from_ := fun st => (garmentAt st s).bind fun n => garment n s
  match from_ .flash, from_ .pretreat with
  | some g, _ | none, some g => s.withPtr fun p => { p with target := some (g.profile.tfMin, g.profile.tfMax) }
  | none, none => s

end Sys2Proof.Machine
end

