-- ==== Sys2Proof/Machine/Firing.lean ====
section
/-!
DEFINITION. The operations of FDP: the nozzle map, the spit, the stroke state, and the composing of one line
(R124 to R143).
-/

namespace Sys2Proof.Machine

/-! ## Nozzles -/

/-- Nozzle positions of one row (R124). -/
abbrev rowNozzles : Nat := 4800

/-- The number of the nozzle at position `x` of row `r` of channel `c`: 400 numbers make a module, in the module order
of R56. -/
def nozzleNumber (c r x : Nat) : Nat := 9600 * c + rowNozzles * r + x

/-- The module of a nozzle, 24 c + 12 r + k (R124). -/
def moduleOf (nozzle : Nat) : Nat := nozzle / 400

/-- A nozzle's state in a map; a nozzle that is not listed is OK (R125). -/
def nozzleState (map : List (Nat × NozzleFault)) (nozzle : Nat) : Option NozzleFault := tabGet nozzle map

/-- Set the state of `n` nozzles from number `lo` upward (R126). -/
def setNozzles (lo n : Nat) (st : Option NozzleFault) (map : List (Nat × NozzleFault)) : List (Nat × NozzleFault) :=
  map.filter (fun e => e.1 < lo) ++
    (match st with
      | some f => (List.range n).map fun k => (lo + k, f)
      | none => []) ++
    map.filter (fun e => lo + n ≤ e.1)

/-- The positions of a channel whose two nozzles are both DEAD (R127). -/
def uncovered (c : Nat) (map : List (Nat × NozzleFault)) : Nat :=
  map.countP fun e =>
    e.2 == .dead && decide (nozzleNumber c 0 0 ≤ e.1 ∧ e.1 < nozzleNumber c 1 0) &&
      nozzleState map (e.1 + rowNozzles) == some .dead

/-! ## Spit -/

/-- Set or clear Print active on the image that a garment refers to (R41, R139). -/
def setPrintActive (serial : Nat) (on : Bool) (s : State) : State :=
  match (garment serial s).bind Garment.image with
  | some id => withImageId id (fun i => { i with printActive := on }) s
  | none => s

/-- The channels that the spit at counter value `c` fires, with their drops (R139, R140). A selected channel whose count is
above 0 is one of them also where its nozzles are all DEAD (log entry 44). -/
def spitChannels (p : SpitSettings) (c : Nat) : List (Nat × Nat) :=
  (List.range 5).filterMap fun ch =>
    let n := (p.counts[ch]?).getD 0
    if ((p.masks[ch]?).getD 0).getLsbD c = true ∧ 0 < n then some (ch, n) else none

/-- What a nozzle spits by its state in the copy (R125, R140): large drops from an OK nozzle, medium drops from a WEAK
one, and none from a DEAD one. -/
def spitDrop : Option NozzleFault → Option FireValue
  | none => some (.drop 3)
  | some .weak => some (.drop 2)
  | some .dead => none

/-- The value of the drops that each nozzle fires in a spit (R140): both rows of every channel that fires, DEAD nozzles
apart. Each of these nozzles fires its channel's count of them. -/
def Spit.values (k : Spit) : List (Nat × FireValue) :=
  k.channels.flatMap fun c => (List.range 2).flatMap fun r => (List.range rowNozzles).filterMap fun x =>
    (spitDrop (nozzleState k.map (nozzleNumber c.1 r x))).map fun v => (nozzleNumber c.1 r x, v)

/-- The spit starts, and its drops are sent (R139, R140). A garment that carries IMAGE_GONE names no image, so no Print
active is set. -/
def startSpit (serial : Nat) (s : State) : State :=
  let c := s.fdp.spitCounter
  let k : Spit := { channels := spitChannels s.prf.spit c, map := s.fdp.nozzles }
  setPrintActive serial true (s.withFdp fun f => { f with
    spit := some k, head := [{ line := none, values := k.values }], spitCounter := (c + 1) % s.prf.spit.period })

/-! ## Stroke state -/

/-- The channels that a stroke drives (R124). -/
def drivenChannels (stroke : Nat) : List Nat := if stroke = 1 then [0] else [1, 2, 3, 4]

/-- The nozzles of the driven channels, in number order. -/
def drivenNozzles (stroke : Nat) : List Nat :=
  if stroke = 1 then List.range 9600 else (List.range 38400).map (9600 + ·)

/-- The 24 bits of the neck mark: the line id, then the serial (R132). -/
def markBits (lineId serial : Nat) : BitVec 24 := BitVec.ofNat 8 lineId ++ BitVec.ofNat 16 serial

/-- FDP sets up its stroke state at a stroke's start (R128). -/
def startStrokeState (stroke serial : Nat) (s : State) : State :=
  let map := s.fdp.nozzles
  let exempt := s.prf.line.exempt
  let marked := match garment serial s with
    | some g => g.profile.markOn
    | none => false
  let k : Stroke :=
    { map := map, interval := s.prf.line.tickle, exempt := exempt,
      idle := (drivenNozzles stroke).filterMap (fun n =>
        if nozzleState map n = some .dead ∨ exempt.getLsbD (moduleOf n) = true then none else some (n, 0)),
      lostDots := 0, tickles := 0, lost := [], read := [],
      mark := if stroke = 2 ∧ marked = true then some (markBits s.prf.line.lineId serial) else none }
  s.withFdp fun f => { f with stroke := some k }

/-- FDP drops the stroke state (R141). -/
def dropStrokeState (s : State) : State := s.withFdp fun f => { f with stroke := none, spit := none }

/-- Nothing is being sent to the heads: FDP has stopped sending (R141), or sends anew (R136). -/
def clearHead (s : State) : State := s.withFdp fun f => { f with head := [] }

/-! ## Band-plane reads (R129) -/

/-- Change the running stroke's state. -/
def withStroke (f : Stroke → Stroke) (s : State) : State := s.withFdp fun d => { d with stroke := d.stroke.map f }

/-- A band-plane is lost for the rest of the stroke, and the garment receives STORE_ECC (R46, R129). -/
def losePlane (serial ch b : Nat) (s : State) : State :=
  addDefect serial .storeEcc (withStroke (fun k => { k with lost := k.lost ++ [(ch, b)] }) s)

/-- An uncorrectable print read: a READY image becomes DAMAGED at once, is appended, and is reported (R46). -/
def damageImage (slot : Nat) (s : State) : State :=
  match tabGet slot s.ims.images with
  | some i =>
    if i.state = .ready then
      imageDamagedReport i.id (note (.image slot) (withImage slot (fun i => { i with state := .damaged }) s))
    else s
  | none => s

/-- FDP reads one band-plane of the image in `slot`; a PAGE entry takes one result from `reads`, clean where none is
given (log entry 7). -/
def readPlane (serial slot : Nat) (i : Image) (ch b : Nat) (p : State × List ReadResult) : State × List ReadResult :=
  let s := withStroke (fun k => { k with read := k.read ++ [(ch, b)] }) p.1
  match planeIndex i.channels i.h ch b with
  | none => (s, p.2)
  | some k =>
    match ((tabGet slot s.ims.images).map Image.planes).bind fun l => l[k]? with
    | some (.page n _) =>
      match p.2.headD .clean with
      | .clean => (s, p.2.tail)
      | .corrected => (countCorrected s, p.2.tail)
      | .uncorrectable => (losePlane serial ch b (damageImage slot (losePage slot k n s)), p.2.tail)
    | some .lost => (losePlane serial ch b s, p.2)
    | _ => (s, p.2)

/-- The band-planes that a line event of line `n` needs first: those of the declared driven channels whose band holds
the line and has not been read in this stroke. A garment that carries IMAGE_GONE makes no read (R129). The model's
choice: the channels are read, and take their results, in the order W, C, M, Y, K (log entry 7). -/
def readBands (serial stroke n : Nat) (p : State × List ReadResult) : State × List ReadResult :=
  match (garment serial p.1).bind Garment.image with
  | none => p
  | some id =>
    match imageOf id p.1 with
    | none => p
    | some (slot, i) =>
      if n < i.y0 ∨ i.y0 + i.h ≤ n then p
      else
        let b := (n - i.y0) / 48
        (drivenChannels stroke).foldl (fun q ch =>
          if i.channels.getLsbD ch = true ∧
              ((q.1.fdp.stroke.map Stroke.read).getD []).contains (ch, b) = false then
            readPlane serial slot i ch b q
          else q) p

/-! ## Composing a line -/

/-- The bytes of image row `n - Y0` of a channel, as the store holds them; empty where the demand is 0 (R130). -/
def rowBytes (i : Image) (ch n : Nat) (s : State) : List Byte :=
  if n < i.y0 ∨ i.y0 + i.h ≤ n then []
  else
    match (planeIndex i.channels i.h ch ((n - i.y0) / 48)).bind fun k => i.planes[k]? with
    | some (.page p _) =>
      (List.range (lineBytes i.w)).map fun j =>
        storeRead s.ims.store (p * Config.pageBytes + (n - i.y0) % 48 * lineBytes i.w + j)
    | _ => []

/-- The demand of dot `x` of an image row (R130): 0 outside the image. -/
def rowDemand (i : Image) (row : List Byte) (x : Nat) : Nat :=
  if x < i.x0 ∨ i.x0 + i.w ≤ x then 0 else dotOf (lineBytes i.w) row 0 (x - i.x0)

/-- The K demand of the mark pattern at dot `x` of line `n`: `none` outside the mark area (R131, R132). -/
def markDemand (p : Profile) (bits : BitVec 24) (n x : Nat) : Option Nat :=
  if p.markX ≤ x ∧ x < p.markX + 48 ∧ p.markY ≤ n ∧ n < p.markY + 32 then
    some (if bits.getMsbD (6 * ((n - p.markY) / 8) + (x - p.markX) / 8) = true then 3 else 0)
  else none

/-- The demand of channel `ch` at dot `x` of line `n` (R130, R131). -/
def demand (g : Garment) (k : Stroke) (img : Option Image) (ch n : Nat) (s : State) : Nat → Nat :=
  let row := match img with
    | some i => rowBytes i ch n s
    | none => []
  fun x =>
    let plain := match img with
      | some i => rowDemand i row x
      | none => 0
    match k.mark with
    | some bits => if ch = 4 then (markDemand g.profile bits n x).getD plain else plain
    | none => plain

/-- The row whose nozzle takes the demand at position `x` of channel `ch` on line `n`; `none` where the position is
uncovered (R133). -/
def givenRow (map : List (Nat × NozzleFault)) (ch n x : Nat) : Option Nat :=
  let base := n % 2
  let other := 1 - base
  if nozzleState map (nozzleNumber ch base x) ≠ some .dead then some base
  else if nozzleState map (nozzleNumber ch other x) ≠ some .dead then some other
  else none

/-- A WEAK nozzle fires a large drop as medium (R135). -/
def weaken (st : Option NozzleFault) (d : Nat) : Nat := if st = some .weak ∧ d = 3 then 2 else d

/-- The drop that a nozzle fires on line `n`, given its channel's demands (R133, R135). -/
def firedBy (map : List (Nat × NozzleFault)) (demands : Nat → Nat) (ch n r x : Nat) : Nat :=
  if givenRow map ch n x = some r then weaken (nozzleState map (nozzleNumber ch r x)) (demands x) else 0

/-- The drops that a channel fires on a line, by nozzle (R136). -/
def channelDrops (map : List (Nat × NozzleFault)) (demands : Nat → Nat) (ch n : Nat) : List (Nat × Nat) :=
  (List.range 2).flatMap fun r => (List.range rowNozzles).filterMap fun x =>
    let v := firedBy map demands ch n r x
    if v = 0 then none else some (nozzleNumber ch r x, v)

/-- The lost dots of a channel on a line (R134). -/
def channelLost (map : List (Nat × NozzleFault)) (demands : Nat → Nat) (ch n : Nat) : Nat :=
  (List.range rowNozzles).countP fun x => givenRow map ch n x == none && demands x != 0

/-- One idle counter on a FIRE line: the counter after it, and whether its nozzle receives a tickle (R137). -/
def idleFire (interval : Nat) (fired : Bool) (k : Nat) : Nat × Bool :=
  if fired then (0, false) else if interval ≤ k + 1 then (0, true) else (k + 1, false)

/-- One idle counter on a BLANK or SKIP line (R137). -/
def idleRest (interval k : Nat) : Nat := min interval (k + 1)

/-- The image that a garment's demands come from: none for a garment that carries IMAGE_GONE (R130). -/
def printImage (g : Garment) (s : State) : Option Image :=
  g.image.bind fun id => (imageOf id s).map Prod.snd

/-- FDP composes a FIRE line, and sends its drops and tickles after those of the lines before it (R133 to R137). -/
def composeLine (serial stroke n : Nat) (s : State) : State :=
  match garment serial s, s.fdp.stroke with
  | some g, some k =>
    let img := printImage g s
    let chans := (drivenChannels stroke).map fun ch => (ch, demand g k img ch n s)
    let drops := chans.flatMap fun c => channelDrops k.map c.2 c.1 n
    let fired := fun nz => drops.any fun d => d.1 == nz
    let ticks := k.idle.filterMap fun e => if (idleFire k.interval (fired e.1) e.2).2 then some e.1 else none
    let values := drops.map (fun d => (d.1, FireValue.drop d.2)) ++ ticks.map fun nz => (nz, FireValue.tickle)
    s.withFdp fun f => { f with
      head := f.head ++ [{ line := some n, values := values }],
      stroke := some { k with
        idle := k.idle.map fun e => (e.1, (idleFire k.interval (fired e.1) e.2).1),
        lostDots := satAdd 16777215 ((chans.map fun c => channelLost k.map c.2 c.1 n).sum) k.lostDots,
        tickles := satAdd 16777215 ticks.length k.tickles } }
  | _, _ => s

/-- FDP on a line event of the form BLANK or SKIP: nothing is sent, and the idle counters move (R136, R137). -/
def restLine (s : State) : State :=
  withStroke (fun k => { k with idle := k.idle.map fun e => (e.1, idleRest k.interval e.2) }) s

/-! ## The decision at the end -/

/-- The print defect decision (R142). -/
def decideDefects (serial : Nat) (s : State) : State :=
  match garment serial s with
  | none => s
  | some g =>
    let s := if g.profile.lineLimit < (g.strokes.map fun r => r.skipped + r.blanked).sum then
        addDefect serial .linesLost s else s
    if g.profile.dotLimit < (g.strokes.map StrokeRec.lostDots).sum then addDefect serial .lostDots s else s

end Sys2Proof.Machine
end

