-- ==== Sys2Proof/Machine/Shuttle.lean ====
section
/-!
DEFINITION. The operations of SHF: the stroke plan, the print of one garment, the framer, line events, the loss of
the encoder signal, and what a halt and a resume do to a print (R107 to R123).
-/

namespace Sys2Proof.Machine

/-! ## The plan (R109) -/

/-- No stroke, no field. -/
def Plan.none : Plan := { strokes := [], image := .none, mark := .none }

/-- The stroke plan of a garment. -/
def planOf (g : Garment) (s : State) : Plan :=
  let mark := if g.profile.markOn then some g.profile.markY else .none
  match printImage g s with
  | some i =>
    { strokes := if i.channels.getLsbD 0 then [1, 2] else [2], image := some (i.y0, i.h), mark := mark }
  | .none => { strokes := if g.profile.markOn then [2] else [], image := .none, mark := mark }

/-- The mark lines that a stroke's field holds: stroke 2 alone prints the mark (R109). -/
def Plan.markIn (p : Plan) (stroke : Nat) : Option Nat := if stroke = 2 then p.mark else .none

/-- Platen line `n` lies in the field of a stroke (R109). -/
def Plan.inField (p : Plan) (stroke n : Nat) : Bool :=
  (match p.image with
    | some (y, h) => decide (y ≤ n ∧ n < y + h)
    | .none => false) ||
  (match p.markIn stroke with
    | some y => decide (y ≤ n ∧ n < y + 32)
    | .none => false)

/-- The first and last line of the field of a stroke (R119). -/
def Plan.bounds (p : Plan) (stroke : Nat) : Nat × Nat :=
  match p.image, p.markIn stroke with
  | some (y, h), some m => (min y m, max (y + h - 1) (m + 31))
  | some (y, h), .none => (y, y + h - 1)
  | .none, some m => (m, m + 31)
  | .none, .none => (0, 0)

/-! ## Motion -/

/-- The motor is commanded to move: the no-signal timer starts from 0 (R120). -/
def moveShuttle (motion : Shuttle) (s : State) : State :=
  s.withShf fun f => { f with shuttle := motion, noSignal := some s.clock }

/-- A homing starts, at the shuttle speed setting as it stands (R108). -/
def startHoming (s : State) : State :=
  moveShuttle .homing (s.withShf fun f => { f with speed := s.prf.line.shuttleSpeed })

/-- The motor stops (R108, R120). -/
def stopShuttle (s : State) : State := s.withShf fun f => { f with shuttle := .stopped, noSignal := none }

/-! ## The print -/

/-- The end of a garment's print: the image reference is returned, the stage is PRINTED, the station is RELEASED (R66,
R110). -/
def finishPrint (serial : Nat) (s : State) : State :=
  release .print (setStage serial .printed (returnImageRef serial (s.withShf fun f =>
    { f with job := .none, plan := .none, begun := false, stroke := 0 })))

/-- A platen arrives at PRINT with a garment (R109). -/
def printArrival (serial : Nat) (s : State) : State :=
  match garment serial s with
  | none => s
  | some g =>
    let p := planOf g s
    if p.strokes = [] then finishPrint serial s
    else s.withShf fun f => { f with job := .waiting, plan := p, begun := false, stroke := 0 }

/-- A stroke starts (R111, R128). -/
def startStroke (s : State) : State :=
  match s.shf.plan.strokes, garmentAt .print s with
  | k :: _, some n =>
    moveShuttle .forward (startStrokeState k n (s.withShf fun f => { f with
      job := .stroke, stroke := k, pos := 0, speed := s.prf.line.shuttleSpeed, lossRule := s.prf.line.lossRule,
      tol := s.prf.line.markTol, autoResync := s.prf.line.autoResync, framer := .acquire, good := 0, window := [],
      framing := 0, skipped := 0, blanked := 0, reach := 0, lastFire := none }))
  | _, _ => s

/-- The spit's completion: its last drop is fired, and the first stroke starts (R110, R140). -/
def completeSpit (s : State) : State :=
  if s.shf.job = .spit ∧ s.fdp.spit.isSome = true then
    startStroke (clearHead (s.withFdp fun f => { f with spit := none }))
  else s

/-- The print begins at the first event at which a planned garment stands at PRINT, the line moves and the shuttle is
HOME (R110). A spit in which no channel fires, because none is selected or every selected count is 0, completes at its
start (R140). The model's choice: a spit whose selected channels have counts above 0 waits for SPIT_COMPLETE also where
every nozzle of theirs is DEAD in the copy, so that no drop is fired (log entry 44). -/
def startPrint (s : State) : State :=
  match garmentAt .print s with
  | some n =>
    if s.shf.job = .waiting ∧ lineMoves s = true ∧ s.shf.shuttle = .home then
      let s := startSpit n (s.withShf fun f => { f with job := .spit, begun := true })
      match s.fdp.spit with
      | some k => if k.channels = [] then completeSpit s else s
      | none => s
    else s
  | none => s

/-- SHF and FDP write the record of the running stroke (R119, R141). -/
def writeRecord (serial : Nat) (aborted : Bool) (s : State) : State :=
  match s.fdp.stroke with
  | some k =>
    let b := s.shf.plan.bounds s.shf.stroke
    withGarment serial (fun g => { g with strokes := g.strokes ++ [
      { number := s.shf.stroke, first := b.1, last := b.2, framing := s.shf.framing, skipped := s.shf.skipped,
        blanked := s.shf.blanked, lostDots := k.lostDots, tickles := k.tickles, framer := s.shf.framer,
        aborted := aborted }] }) s
  | none => s

/-- The stroke's end (R110, R111): after the last stroke FDP makes its decision and clears Print active. -/
def endStroke (s : State) : State :=
  match garmentAt .print s with
  | some n =>
    let s := dropStrokeState (writeRecord n false s)
    let s := moveShuttle .return_ (s.withShf fun f =>
      { f with job := .return_, stroke := 0, plan := { f.plan with strokes := f.plan.strokes.tail } })
    if s.shf.plan.strokes = [] then setPrintActive n false (decideDefects n s) else s
  | none => s

/-- A print in progress: from the start of the spit to the end of the last stroke (R120, R122). -/
def printInProgress (s : State) : Bool :=
  match s.shf.job with
  | .spit | .stroke => true
  | .return_ => !s.shf.plan.strokes.isEmpty
  | _ => false

/-- A print is aborted (R120, R122, R141). -/
def abortPrint (s : State) : State :=
  match garmentAt .print s with
  | some n =>
    let s := clearHead (dropStrokeState (writeRecord n true (addDefect n .printAborted s)))
    (setPrintActive n false s).withShf fun f => { f with stroke := 0, plan := { f.plan with strokes := [] } }
  | none => s

/-! ## Line events (R116 to R118) -/

/-- The platen line that is due at an encoder count, if one is (R107). -/
def lineAt (count : Nat) : Option Nat :=
  if Config.lineZeroCount ≤ count ∧ (count - Config.lineZeroCount) % 4 = 0 ∧
      (count - Config.lineZeroCount) / 4 < Config.fieldLines then
    some ((count - Config.lineZeroCount) / 4)
  else none

/-- The form of a line event (R117, R118). -/
inductive LineForm where
  | fire | blank | skip
deriving DecidableEq, Repr

/-- The form that a line event taken now has. -/
def lineForm (s : State) : LineForm :=
  if s.shf.framer ≠ .sync then .blank
  else match s.shf.lastFire with
    | some t => if s.clock - t < 50 then .skip else .fire
    | none => .fire

/-- One line event of field line `n`: SHF counts its form, FDP reads the bands it needs first and composes it. -/
def lineEvent (n : Nat) (p : State × List ReadResult) : State × List ReadResult :=
  match garmentAt .print p.1 with
  | none => p
  | some serial =>
    let stroke := p.1.shf.stroke
    let q := readBands serial stroke n p
    match lineForm q.1 with
    | .fire => (composeLine serial stroke n (q.1.withShf fun f => { f with lastFire := some q.1.clock }), q.2)
    | .blank => (restLine (q.1.withShf fun f => { f with blanked := satAdd 6240 1 f.blanked }), q.2)
    | .skip => (restLine (q.1.withShf fun f => { f with skipped := satAdd 1023 1 f.skipped }), q.2)

/-- The line events of the counts not yet reached, up to the position as it now stands; then the stroke's end at 28,800
counts (R111, R116). What is sent to the heads is sent by these events (R136). -/
def advanceStroke (reads : List ReadResult) (s : State) : State :=
  let top := s.shf.pos.toNat
  let q := ((List.range (top - s.shf.reach)).map (s.shf.reach + 1 + ·)).foldl (fun p count =>
    match lineAt count with
    | some n => if p.1.shf.plan.inField p.1.shf.stroke n then lineEvent n p else p
    | none => p) (clearHead s, reads)
  let s := q.1.withShf fun f => { f with reach := max f.reach top }
  if Config.strokeCounts ≤ top then endStroke s else s

/-- An encoder count (R107): the position moves by one in every state, the no-signal timer restarts where it runs, and a
running stroke makes the line event of the count it reaches. -/
def encoderCount (forward : Bool) (reads : List ReadResult) (s : State) : State :=
  let s := s.withShf fun f => { f with
    pos := if forward then f.pos + 1 else f.pos - 1,
    noSignal := if f.noSignal.isSome then some s.clock else none }
  if s.shf.shuttle = .forward then advanceStroke reads s else s

/-! ## The framer (R112 to R115) -/

/-- The nearest mark count (R112). -/
def nearestMark (pos : Int) : Nat := Config.markCounts * clamp 1 15 ((pos.toNat + 960) / Config.markCounts)

/-- A mark at position `pos` is good (R112). -/
def markGood (pos : Int) (tol : Nat) : Bool := (pos - nearestMark pos).natAbs ≤ tol

/-- The length of the mark window (R114). -/
def LossRule.window : LossRule → Nat
  | .twoOfFour => 4
  | .twoOfFive => 5

/-- The mark window after one more mark (R114). -/
def pushMark (size : Nat) (w : List Bool) (good : Bool) : List Bool :=
  if w.length < size then w ++ [good] else w.tail ++ [good]

/-- The framer after a judged mark (R113 to R115). -/
def judge (good : Bool) (f : Shf) : Shf :=
  match f.framer with
  | .acquire =>
    if good then
      if f.good + 1 < 2 then { f with good := f.good + 1 }
      else { f with framer := .sync, good := f.good + 1, window := [] }
    else { f with good := 0 }
  | .sync =>
    let w := pushMark f.lossRule.window f.window good
    if 2 ≤ w.countP (· == false) then
      if f.autoResync then { f with framer := .acquire, good := 0, window := w }
      else { f with framer := .los, window := w }
    else { f with window := w }
  | .los => f

/-- A scale mark report (R112): judged while the shuttle is FORWARD; a good mark snaps the position, a bad one is a
framing error; the line events of a forward snap come after the mark has been judged (R116). -/
def scaleMarkReport (reads : List ReadResult) (s : State) : State :=
  if s.shf.shuttle = .forward then
    if markGood s.shf.pos s.shf.tol then
      advanceStroke reads (s.withShf fun f => judge true { f with pos := nearestMark f.pos })
    else s.withShf fun f => judge false { f with framing := satAdd 255 1 f.framing }
  else s

/-! ## Home, loss of signal, halt and resume -/

/-- The end of a homing or a return (R108, R110, R121, R122). -/
def arriveHome (s : State) : State :=
  let s := s.withShf fun f => { f with shuttle := .home, noSignal := none }
  match s.shf.job, garmentAt .print s with
  | .return_, some n => if s.shf.plan.strokes = [] then finishPrint n s else startStroke s
  | .held, some n | .cut, some n => finishPrint n s
  | _, _ => s

/-- A home sensor report sets the position to 0, and ends a homing or a return (R107, R108). -/
def homeReport (s : State) : State :=
  let s := s.withShf fun f => { f with pos := 0 }
  match s.shf.shuttle with
  | .homing | .return_ => arriveHome s
  | _ => s

/-- The no-signal timer reaches 20 ms (R120). -/
def loseSignal (s : State) : State :=
  if s.shf.noSignal.isSome then
    let s := onset aEncoder true (stopShuttle s)
    let s := if printInProgress s then abortPrint s else s
    match garmentAt .print s with
    | some _ =>
      if s.car.print.working then setHold .print .encoder (s.withShf fun f => { f with job := .held }) else s
    | none => s
  else s

/-- A HELD print leaves its wait: the hold reason becomes NONE and the homing begins (R121). -/
def homeHeld (s : State) : State := startHoming (setHold .print .none s)

/-- ALM holds ENCODER IDLE (R121): a STOPPED shuttle homes, a HELD print once the line moves. -/
def encoderIdle (s : State) : State :=
  if s.shf.shuttle = .stopped ∧ ownerIdle aEncoder s = true then
    match s.shf.job with
    | .held => if lineMoves s then homeHeld s else s
    | .none | .waiting => if s.car.line = .halted then s else startHoming s
    | _ => s
  else s

/-- SHF and FDP at the entry to HALTED (R122). -/
def haltPrint (s : State) : State :=
  let s := if s.shf.shuttle = .home then s.withShf fun f => { f with noSignal := none } else stopShuttle s
  if printInProgress s then (abortPrint s).withShf fun f => { f with job := .cut } else s

/-- SHF and FDP at the line resume (R108, R121, R122). A last return that the halt stopped goes on to the home sensor as
a homing, at the speed setting read then, with the job state RETURN kept (R108; log entry 38). The model's choice: a
STOPPED shuttle homes at the resume too where a garment WAITS at PRINT, and where ENCODER became IDLE during HALTED (log
entry 41). -/
def resumePrint (s : State) : State :=
  match s.shf.job, garmentAt .print s with
  | .cut, some n => if s.shf.shuttle = .home then finishPrint n s else startHoming s
  | .return_, some _ => if s.shf.shuttle = .stopped then startHoming s else s
  | _, _ => encoderIdle s

/-- SHF at an accepted RESET request (R123). -/
def resetShuttle (s : State) : State :=
  let s := s.withShf fun f => { f with
    job := .none, plan := .none, begun := false, stroke := 0, framer := .acquire, good := 0, window := [],
    framing := 0, skipped := 0, blanked := 0 }
  if s.shf.shuttle = .stopped then startHoming s else s

end Sys2Proof.Machine
end

