-- ==== Sys2Proof/Machine/Gate.lean ====
section
/-!
DEFINITION. The entry gate, its two claims, and the transfer from UNLOAD (R84 to R86, R161 to R166), with what EXS
does at a re-feed (R184, R185).
-/

namespace Sys2Proof.Machine

/-- Set the ENTRY lamp; a change appends the line (R184). -/
def setEntryLamp (l : EntryLamp) (s : State) : State :=
  if s.exs.lamp = l then s else note .line (s.withExs fun e => { e with lamp := l })

/-- A tested claim is admitted with its warning, if any, and the speed is recomputed (R156, R166). -/
def admitted (serial : Nat) (range : Bool) (s : State) : State := recomputeSpeed (warnRange serial range s)

/-- The UNLOAD claim is admitted (R164): the transfer begins, or waits for the exit from HALTED (R85). The model's choice:
the line, where the hold reason changes, is appended before the garment that takes CURE_RANGE (R166; log entry 11). -/
def admitUnload (serial : Nat) (range : Bool) (s : State) : State :=
  let s := s.withCtc fun c => { c with gateHeld := true, unloadClaim := none, entrant := some serial }
  let s := s.withCar fun c => { c with transfer := if c.line = .halted then .stopped else .running }
  admitted serial range (setHold .unload .none s)

/-- The gate tests the UNLOAD claim while it is FREE (R162, R163). -/
def testUnload (s : State) : State :=
  match s.ctc.unloadClaim with
  | some n =>
    if s.ctc.gateHeld then s
    else match admission n s with
      | .fails why => setHold .unload why s
      | .admitted range => admitUnload n range s
  | none => s

/-- The re-feed claim is admitted (R165, R185). The model's choice: the last reason reported becomes NONE (R184; log
entry 40), and the line, for the lamp GO, is appended before the garment that takes CURE_RANGE (log entry 11). -/
def admitRefeed (serial : Nat) (range : Bool) (s : State) : State :=
  let s := s.withCtc fun c => { c with refeedClaim := none }
  let s := s.withExs fun e => { e with recure := e.recure.filter (· != serial), reason := .none }
  let s := withGarment serial (fun g =>
    { g with recures := satAdd 3 1 g.recures, verification := none, outcome := none, route := none }) s
  admitted serial range (setEntryLamp .go (placeOnBelt serial s))

/-- The gate tests the re-feed claim while it is FREE; a failed test reports its reason (R162, R163, R184). -/
def testRefeed (s : State) : State :=
  match s.ctc.refeedClaim with
  | some n =>
    if s.ctc.gateHeld then s
    else match admission n s with
      | .fails why => s.withExs fun e => { e with reason := why }
      | .admitted range => admitRefeed n range s
  | none => s

/-- The tests of a sample: the re-feed claim first (R162). -/
def testClaims (s : State) : State := testUnload (testRefeed s)

/-- A garment arrives at UNLOAD: AT_UNLOAD, and its claim is made and tested (R84, R161). -/
def unloadArrival (serial : Nat) (s : State) : State :=
  testUnload ((setStage serial .atUnload s).withCtc fun c => { c with unloadClaim := some serial })

/-- The transfer's completion (R85, R164). -/
def completeTransfer (s : State) : State :=
  match s.car.transfer, s.ctc.entrant with
  | .running, some n =>
    let s := placeOnBelt n (setContents .unload .empty s)
    let s := s.withCtc fun c => { c with gateHeld := false, entrant := none }
    release .unload (s.withCar fun c => { c with transfer := .none })
  | _, _ => s

end Sys2Proof.Machine
end

