-- ==== Sys2Proof/Machine/Exit.lean ====
section
/-!
DEFINITION. The operations of EXS: the cure outcome, the EXIT and ENTRY records, the route at the diverter, the
recure list and the bins (R171 to R193), and the belt count that drives them (R144, R159, R160).
-/

namespace Sys2Proof.Machine

/-! ## The exit window -/

/-- The cure outcome of a garment (R171). -/
def cureOutcome (g : Garment) : CureOutcome :=
  if g.d < g.dReq then .undercured else if g.d ≤ g.dMax then .pass else .scorched

/-- A garment passes 3,000 mm: EXS fixes its outcome and writes IN_EXIT, and CTC recomputes the speed (R159,
R171). -/
def passExit (serial : Nat) (s : State) : State :=
  recomputeSpeed (withGarment serial (fun g => { g with outcome := some (cureOutcome g), stage := .inExit }) s)

/-- The riders of the exit window: the front members at 3,000 mm or beyond (R171). -/
def exitWindow (s : State) : List Rider := s.ctc.tunnel.takeWhile fun r => !r.heated

/-- The expected garment (R171). -/
def expected (s : State) : Option Nat := (exitWindow s).head?.map Rider.serial

/-- CTC removes a garment from the tunnel list (R160). -/
def removeRider (serial : Nat) (s : State) : State :=
  s.withCtc fun c => { c with tunnel := c.tunnel.filter fun r => r.serial != serial }

/-- CTC corrects a garment's position to 3,000 mm; one at or beyond it stays as it is (R159). -/
def correctRider (serial : Nat) (s : State) : State :=
  match s.ctc.tunnel.find? fun r => r.serial == serial with
  | some r =>
    if r.heated then
      let s := s.withCtc fun c => { c with tunnel := c.tunnel.map fun r =>
        if r.serial = serial then { r with travel := Config.exitCounts } else r }
      passExit serial (writeBelt { serial := serial, travel := Config.exitCounts } s)
    else s
  | none => s

/-! ## Sorting -/

/-- The record becomes SORTED: its location is absent, and the garment is appended (R178, R181, R186). -/
def sortRecord (serial : Nat) (f : Garment → Garment) (s : State) : State :=
  note (.garment serial) (withGarment serial (fun g => { f g with stage := .sorted, location := .absent }) s)

/-- The sort report for the unit of a garment (R179). -/
def reportSort (serial : Nat) (r : Report) (s : State) : State :=
  match garment serial s with
  | some g => sortReport r g s
  | none => s

/-- A garment is sorted MISSING (R181): the diverter does not move for it. -/
def sortMissing (serial : Nat) (s : State) : State :=
  let s := sortRecord serial (fun g =>
    { g with defects := addTo .missing g.defects, verification := some .missing }) s
  reportSort serial .reprint (removeRider serial s)

/-- The diverter takes a position, and its hold starts at 0 counts (R180). -/
def setDiverter (r : Route) (s : State) : State := s.withExs fun e => { e with diverter := r, hold := some 0 }

/-- The lowest FREE bin at or below the enabled count (R188). -/
def freeBin (s : State) : Option Nat :=
  ((List.range (min s.prf.line.bins Config.binCount)).find? fun k => (binAt (k + 1) s).state == .free).map (· + 1)

/-- A garment is sorted at the diverter (R178). -/
def sortAtDiverter (serial : Nat) (r : Route) (f : Garment → Garment) (s : State) : State :=
  setDiverter r (sortRecord serial (fun g => { f g with route := some r }) s)

/-- A PASS garment of a multi-unit order: rows 8 to 10 (R177, R188). -/
def sortToBin (serial slot : Nat) (o : Order) (s : State) : State :=
  match o.bin with
  | some b =>
    let s := sortAtDiverter serial (.bin b) id s
    reportSort serial .done (setBin b { binAt b s with count := (binAt b s).count + 1 } s)
  | none =>
    match freeBin s with
    | some b =>
      let s := setBin b { state := .filling, order := some o.id, count := 1 } (sortAtDiverter serial (.bin b) id s)
      reportSort serial .done (note (.order slot) (withOrder slot (fun o => { o with bin := some b }) s))
    | none =>
      let s := sortAtDiverter serial .manual (fun g => { g with warnings := addTo .noBin g.warnings }) s
      let s := note (.order slot) (withOrder slot (fun o => { o with split := true }) s)
      onset aNoBin true (reportSort serial .done s)

/-- A garment is taken onto the recure list at row 5 (R177, R182). -/
def sendToRecure (serial : Nat) (s : State) : State :=
  let s := withGarment serial (fun g =>
    { g with route := some .recure, stage := .recureWait, location := .recure }) s
  setDiverter .recure (s.withExs fun e => { e with recure := e.recure ++ [serial] })

/-- The route of a garment at the diverter, by the first row of R177 that applies; `g` is its record with its
verification decided. -/
def routeGarment (serial slot : Nat) (o : Order) (g : Garment) (s : State) : State :=
  if o.state = .cancelling then
    reportSort serial .cancelled (sortAtDiverter serial .reject (fun g => { g with outcome := some .cancelled }) s)
  else if g.verification = some .unverified then reportSort serial .reprint (sortAtDiverter serial .manual id s)
  else if g.defects ≠ [] then reportSort serial .reprint (sortAtDiverter serial .reject id s)
  else match g.outcome with
    | some .pass =>
      if unitTotal o = 1 then reportSort serial .done (sortAtDiverter serial .single id s) else sortToBin serial slot o s
    | some .undercured =>
      if g.recures < s.prf.line.recureLimit ∧ s.exs.recure.length < Config.recureCapacity then sendToRecure serial s
      else reportSort serial .reprint (sortAtDiverter serial .reject id s)
    | _ => reportSort serial .reprint (sortAtDiverter serial .reject id s)

/-- A garment reaches the diverter: CTC removes it from the list, a garment with no verification becomes
UNVERIFIED, and EXS decides its route (R160, R177). -/
def reachDiverter (serial : Nat) (s : State) : State :=
  let s := withGarment serial (fun g => { g with verification := some (g.verification.getD .unverified) })
    (removeRider serial s)
  match garment serial s with
  | some g =>
    match orderOf g.order s with
    | some (slot, o) => routeGarment serial slot o g s
    | none => s
  | none => s

/-! ## Belt counts -/

/-- The diverter hold counts one belt count, and returns the diverter to MANUAL at 2,000 (R180). -/
def countHold (s : State) : State :=
  match s.exs.hold with
  | some n =>
    if n + 1 < Config.holdCounts then s.withExs fun e => { e with hold := some (n + 1) }
    else s.withExs fun e => { e with hold := none, diverter := .manual }
  | none => s

/-- One belt encoder count (R144): the stall timer restarts where it runs, every garment moves, the diverter hold
counts, the front garment may reach the diverter, and a garment may pass 3,000 mm (R158 to R160). -/
def beltCount (s : State) : State :=
  let s := s.withCtc fun c => { c with
    stallFrom := if c.stallFrom.isSome then some s.clock else none,
    tunnel := c.tunnel.map fun r => { r with travel := r.travel + 1 } }
  let s := s.ctc.tunnel.foldl (fun t r => if r.travel % 10 = 0 then writeBelt r t else t) s
  let s := countHold s
  let s := (s.ctc.tunnel.filter fun r => Config.diverterCounts ≤ r.travel).foldl (fun t r => reachDiverter r.serial t) s
  (s.ctc.tunnel.filter fun r => r.travel == Config.exitCounts).foldl (fun t r => passExit r.serial t) s

/-! ## EXIT records -/

/-- The class of an EXIT record (R172). -/
inductive ExitClass where
  | malformed
  | foreign
  | unknown
  | expected (serial : Nat)
  | late (serial : Nat)
deriving DecidableEq, Repr

/-- EXS classifies an EXIT record (R172). -/
def classifyExit (chars : List Byte) (s : State) : ExitClass :=
  match markOf chars with
  | none => .malformed
  | some (line, serial) =>
    if line ≠ s.prf.line.lineId then .foreign
    else if s.ctc.tunnel.any (fun r => r.serial == serial) = false then .unknown
    else if expected s = some serial then .expected serial
    else .late serial

/-- VERIFIED (R173). -/
def verify (serial : Nat) (s : State) : State :=
  withGarment serial (fun g => { g with verification := some .verified }) s

/-- A LATE record (R174): every member in front is sorted MISSING, front first, and the named garment is corrected
and VERIFIED. -/
def lateRecord (serial : Nat) (s : State) : State :=
  let front := s.ctc.tunnel.takeWhile fun r => r.serial != serial
  verify serial (correctRider serial (front.foldl (fun t r => sortMissing r.serial t) s))

/-- EXS takes an EXIT record (R172 to R175). -/
def takeExit (chars : List Byte) (s : State) : State :=
  match classifyExit chars s with
  | .malformed => s.withExs fun e => { e with malformed := satAdd 65535 1 e.malformed }
  | .foreign => note .line (s.withExs fun e => { e with foreign := satAdd 65535 1 e.foreign })
  | .unknown => note .line (s.withExs fun e => { e with unknown := satAdd 65535 1 e.unknown })
  | .expected n => verify n s
  | .late n => lateRecord n s

/-! ## ENTRY records -/

/-- EXS takes an ENTRY record (R183): an accepted one makes the re-feed claim, which the gate tests at once
(R162). -/
def takeEntry (chars : List Byte) (s : State) : State :=
  match markOf chars with
  | none => setEntryLamp .refused s
  | some (line, serial) =>
    if line ≠ s.prf.line.lineId ∨ s.exs.recure.contains serial = false then setEntryLamp .refused s
    else if s.ctc.refeedClaim = some serial then s
    else if s.ctc.refeedClaim.isSome then setEntryLamp .refused s
    else testRefeed (setEntryLamp .wait (s.withCtc fun c => { c with refeedClaim := some serial }))

/-! ## Requests of EXS -/

/-- RECURE_DROP of a garment on the recure list (R186). The model's choice: a claim withdrawn leaves the last reason
reported at NONE (R184; log entry 40). -/
def dropRecure (serial : Nat) (s : State) : State :=
  let s := if s.ctc.refeedClaim = some serial then
      setEntryLamp .off ((s.withCtc fun c => { c with refeedClaim := none }).withExs fun e => { e with reason := .none })
    else s
  let s := s.withExs fun e => { e with recure := e.recure.filter (· != serial) }
  reportSort serial .reprint (sortRecord serial (fun g => { g with outcome := some .dropped, route := none }) s)

/-- BIN_CLEAR frees a bin, and ORD acts on its order (R19, R190). -/
def clearBin (n : Nat) (s : State) : State :=
  let b := binAt n s
  let s := setBin n .freed s
  match b.order.bind fun id => orderOf id s with
  | some (slot, _) =>
    if b.state = .complete then retire slot s
    else note (.order slot) (withOrder slot (fun o => { o with bin := none, split := true }) s)
  | none => s

end Sys2Proof.Machine
end

