-- ==== Sys2Proof/Machine/Line.lean ====
section
/-!
DEFINITION. The operations of CAR: the line states, the index, the LOAD station and the binding (R64 to R82), and
the events "at the first event at which" (R67, R96, R110), which every command that changes a part of their
conditions ends with.
-/

namespace Sys2Proof.Machine

/-! ## The LOAD lamp -/

/-- The state the LOAD lamp shows, by its order of test (R78). -/
def lampOf (s : State) : LoadLamp :=
  if !lineMoves s then .off
  else if s.car.refused then .refused
  else if !s.car.load.working || s.car.index != .none then .off
  else match contentsAt .load s with
    | .unknown => .confirm
    | .empty => .ready
    | .garment _ => .bound

/-- Drive the LOAD lamp; a change appends the line (R78). -/
def updateLamp (s : State) : State :=
  if s.car.lamp = lampOf s then s else note .line (s.withCar fun c => { c with lamp := lampOf s })

/-- A scan result; a change of the last scan result appends the line (R12, R78). -/
def setScan (r : ScanResult) (s : State) : State :=
  if s.car.lastScan = some r then s else note .line (s.withCar fun c => { c with lastScan := some r })

/-! ## Line states -/

/-- The line takes a state (R71 to R73): a change appends the line, leaving RUNNING clears the REFUSED mark (R78),
IDLE and HALTED turn every heater off (R149, R100), and the belt follows (R157). -/
def setLine (l : LineState) (s : State) : State :=
  if s.car.line = l then s
  else
    let s := note .line (s.withCar fun c => { c with line := l, refused := if l = .running then c.refused else false })
    let s := if lineWarm s then s
      else (s.withCtc fun c => { c with zones := c.zones.map fun z => { z with duty := 0 } }).withPtr fun p =>
        { p with heater := false }
    syncBelt s

/-- The index motor stops: its run time stands still (R68, R69). -/
def pauseIndex (s : State) : State :=
  if s.car.index = .moving then
    s.withCar fun c => { c with index := .paused, indexRun := c.indexRun + (s.clock - c.indexFrom) }
  else s

/-- The entry to HALTED (R73): index, transfer and drill, then the halt of every block. The model's choice: the line is
appended before the instances of a drill that ends (log entry 11). -/
def enterHalted (s : State) : State :=
  match s.car.line with
  | .running | .draining | .stopped =>
    let s := pauseIndex (setLine .halted s)
    let s := s.withCar fun c => { c with transfer := if c.transfer = .running then .stopped else c.transfer }
    haltPrint (haltFlash (haltPretreat (endDrill s)))
  | _ => s

/-- The line leaves HALTED: the resume of every block (R74, R86). The model's choice: PRETREAT resumes before FLASH, and
FLASH before PRINT, so that a FLUID_LOW reference comes before a FLASH_HOT one (log entry 11). -/
def resumeLine (s : State) : State :=
  let s := s.withCar fun c => { c with transfer := if c.transfer = .stopped then .running else c.transfer }
  resumePrint (resumeFlash (resumePretreat s))

/-- The onset of a momentary halt-class alarm (R201). -/
def haltOnset (i : Nat) (s : State) : State := enterHalted (onset i true s)

/-- A DRAINING line becomes STOPPED when no platen holds a garment and no index is in progress (R72). -/
def stopTest (s : State) : State :=
  if s.car.line = .draining ∧ noGarmentOnPlatens s = true ∧ s.car.index = .none then setLine .stopped s else s

/-- The place-complete report (R85): a transfer that runs completes, and a DRAINING line may then stop (R72). A report
that finds no transfer RUNNING is disregarded (R86). -/
def placeReported (s : State) : State :=
  match s.car.transfer, s.ctc.entrant with
  | .running, some _ => stopTest (completeTransfer s)
  | _, _ => s

/-- The LOAD station presents an EMPTY platen, and no index is in progress. -/
def emptyAtLoad (s : State) : Bool := contentsAt .load s == .empty && s.car.index == .none

/-- The line enters RUNNING (R71). -/
def enterRunning (s : State) : State :=
  let halted := s.car.line = .halted
  let s := setLine .running s
  let s := if halted then resumeLine s else s
  if emptyAtLoad s && !s.car.load.working then setStation .load { working := true, hold := .none } s else s

/-- The line enters DRAINING, and may stop at once (R72). -/
def enterDraining (s : State) : State :=
  let halted := s.car.line = .halted
  let s := setLine .draining s
  let s := if halted then resumeLine s else s
  stopTest (if emptyAtLoad s && s.car.load.working then release .load s else s)

/-! ## The index -/

/-- Every station is RELEASED (R67). -/
def allReleased (s : State) : Bool :=
  !s.car.load.working && !s.car.pretreat.working && !s.car.flash.working && !s.car.print.working &&
  !s.car.unload.working

/-- What an index start and an index resume both ask (R67, R69). -/
def indexAllowed (s : State) : Bool :=
  lineMoves s && !s.pins.estop && ownerIdle aGuard s && guardsHigh s

/-- The index starts, pauses and resumes at the first event at which its conditions hold (R67, R69). -/
def tryIndex (s : State) : State :=
  match s.car.index with
  | .none =>
    if indexAllowed s && allReleased s then
      s.withCar fun c => { c with index := .moving, indexRun := 0, indexFrom := s.clock }
    else s
  | .moving => if s.pins.estop || !guardsHigh s || s.car.line == .halted then pauseIndex s else s
  | .paused =>
    if indexAllowed s then s.withCar fun c => { c with index := .moving, indexFrom := s.clock } else s

/-- What every event that may change a part of a waiting condition ends with: the traverse (R96), the print (R110),
the index (R67, R69) and the lamp (R78). -/
def advance (s : State) : State := updateLamp (tryIndex (startPrint (startTraverse s)))

/-- The platens move on by one position with their contents (R68). -/
def rotate (l : List Platen) : List Platen :=
  match l.getLast? with
  | some p => p :: l.dropLast
  | none => []

/-- A station takes its state from the platen that has arrived (R65). -/
def arriveAt (st : Station) (f : Nat → State → State) (s : State) : State :=
  match contentsAt st s with
  | .garment n => f n (setStation st { working := true, hold := .none } s)
  | _ => setStation st { working := false, hold := .none } s

/-- A platen arrives at LOAD (R65, R75). -/
def arriveAtLoad (s : State) : State :=
  setStation .load { working := !(contentsAt .load s == .empty && s.car.line != .running), hold := .none } s

/-- The platen arrivals of a completed index, at every station (R65). The model's choice: the stations take their arrivals
in the order LOAD, PRETREAT, FLASH, PRINT, UNLOAD, so that a FLUID_LOW reference comes before a FLASH_HOT one, and both
before a garment that takes CURE_RANGE (log entry 11). -/
def arrivals (s : State) : State :=
  takeTarget (arriveAt .unload unloadArrival (arriveAt .print printArrival (arriveAt .flash flashArrival
    (arriveAt .pretreat pretreatArrival (arriveAtLoad s)))))

/-- The index sensor reports (R68): a report taken while the index is not MOVING is disregarded. The model's choice: the
run time is 0 s from the completion on (log entry 37). -/
def indexSensed (s : State) : State :=
  if s.car.index = .moving then
    stopTest (arrivals (s.withCar fun c =>
      { c with index := .none, indexRun := 0, platens := rotate c.platens }))
  else s

/-- The index run time reaches 3.0 s (R70). -/
def indexExpired (s : State) : State :=
  if s.car.index = .moving then
    haltOnset aIndexFault (s.withCar fun c => { c with index := .paused, indexRun := 0 })
  else s

/-- The index run time in ms, at most 3,000 (R224). -/
def indexMs (s : State) : Nat :=
  let run := s.car.indexRun + if s.car.index = .moving then s.clock - s.car.indexFrom else 0
  min 3000 (run / 1000)

/-! ## The LOAD station -/

/-- The first serial after `last` that no record holds, counting from 65,535 to 1 (R82). -/
def nextSerial (garments : List (Nat × Garment)) : Nat → Nat → Nat
  | 0, last => last % 65535 + 1
  | fuel + 1, last =>
    let n := last % 65535 + 1
    if (tabGet n garments).isSome then nextSerial garments fuel n else n

/-- The first unit of the pick queue whose item has an SKU (R13). -/
def matchUnit (sku : Nat) (s : State) : Option (Nat × UnitRec × Order × Item) :=
  s.ord.queue.findSome? fun e =>
    match tabGet e.seq s.ord.units with
    | some u =>
      match tabGet u.slot s.ord.orders with
      | some o =>
        match o.items[u.item]? with
        | some it => if it.sku = sku then some (e.seq, u, o, it) else none
        | none => none
      | none => none
    | none => none

/-- A garment record at binding (R79, R81, R152). -/
def newGarment (u : UnitRec) (o : Order) (it : Item) (p : Profile) (platen inkK : Nat) : Garment :=
  let lim := doseLimits p inkK
  { order := o.id, item := u.item, index := u.index, sku := it.sku, image := some it.image, profile := p,
    stage := .bound, location := .platen platen, defects := [], warnings := if lim.2.2 then [.heavy] else [],
    dose := 0, dwell := 0, strokes := [], d := 0, dReq := lim.1, dMax := lim.2.1, recures := 0,
    verification := none, outcome := none, route := none }

/-- The number of the platen at LOAD. -/
def loadPlaten (s : State) : Nat := ((s.car.platens[0]?).map Platen.number).getD 0

/-- A scan matched at step 6 is bound (R13, R81). The model's choice: the order is appended before the line, for the last
scan result and the lamp (log entry 11). -/
def bindUnit (seq : Nat) (u : UnitRec) (o : Order) (it : Item) (s : State) : State :=
  let inkK := (((imageOf it.image s).bind fun p => p.2.coverage).getD .zero).inkK
  let serial := nextSerial s.car.garments Config.garmentRecords s.car.lastSerial
  let g := newGarment u o it ((s.prf.profiles[it.profile]?).getD .powerOn) (loadPlaten s) inkK
  let s := withImageId it.image (fun i => { i with garmentRefs := i.garmentRefs + 1 }) (moveUnit seq .inLine s)
  let s := s.withCar fun c => { c with garments := tabSet serial g c.garments, lastSerial := serial }
  setScan .bound (setContents .load (.garment serial) s)

/-- A refused scan: its reason, and the REFUSED mark (R12, R78). -/
def refuseScan (r : ScanResult) (s : State) : State := setScan r (s.withCar fun c => { c with refused := true })

/-- A LOAD record is matched (R12). -/
def takeLoad (chars : List Byte) (s : State) : State :=
  if s.car.line ≠ .running then s
  else
    let s := s.withCar fun c => { c with refused := false }
    match skuOf chars with
    | none => refuseScan .badSku s
    | some sku =>
      if !(s.car.load.working && emptyAtLoad s) then refuseScan .platenBusy s
      else if Config.garmentRecords ≤ s.car.garments.length then refuseScan .tableFull s
      else match matchUnit sku s with
        | none => refuseScan .noDemand s
        | some (seq, u, o, it) => bindUnit seq u o it s

/-- The LOAD station is WORKING on a platen that stands there. -/
def loadAtWork (s : State) : Bool := s.car.load.working && s.car.index == .none

/-- The footswitch (R76); every press ends a REFUSED lamp (R78). -/
def pressFoot (s : State) : State :=
  let s := s.withCar fun c => { c with refused := false }
  if lineMoves s && loadAtWork s then
    match contentsAt .load s with
    | .unknown =>
      let s := setContents .load .empty s
      if s.car.line = .draining then release .load s else s
    | .empty => release .load s
    | .garment n => release .load (setStage n .loaded s)
  else s

/-- SKIP (R14, R77). The model's choice: the order, and a bin that its retirement frees, are appended before the line, for
the lamp or for a line that stops (log entry 11). -/
def pressSkip (s : State) : State :=
  if loadAtWork s then
    match contentsAt .load s with
    | .garment n =>
      match garment n s with
      | some g =>
        let s := skipUnit g (returnImageRef n s)
        let s := setContents .load .empty (s.withCar fun c => { c with garments := tabErase n c.garments })
        if s.car.line = .draining then stopTest (release .load s) else s
      | none => s
    | _ => s
  else s

/-! ## Field inputs -/

/-- The e-stop input is read (R204): the onset halts the line (R201). -/
def readEstop (active : Bool) (s : State) : State :=
  let was := (alarm aEstop s).present
  let s := reportCondition aEstop active (s.withPins fun p => { p with estop := active })
  if active && !was then enterHalted s else s

/-- The guard inputs are judged (R205, R206). -/
def judgeGuards (s : State) : State := reportCondition aGuard (!guardsHigh s) s

/-- A guard input is read (R205): guard `g` is bit g − 1. -/
def readGuard (g : Nat) (high : Bool) (s : State) : State :=
  judgeGuards (s.withPins fun p => { p with
    guards := if high then p.guards ||| BitVec.ofNat 4 (2 ^ (g - 1)) else p.guards &&& ~~~ BitVec.ofNat 4 (2 ^ (g - 1)) })

/-- ALM's first reading of e-stop and the guards, against absent conditions (R211). -/
def firstReading (s : State) : State := judgeGuards (readEstop s.pins.estop s)

/-! ## Scanner lines -/

/-- The record of a scanner line. -/
def scanner (l : ScanLine) (s : State) : Scanner :=
  match l with
  | .load => s.alm.load
  | .entry => s.alm.entry
  | .exit => s.alm.exit

/-- Set the record of a scanner line. -/
def setScanner (l : ScanLine) (c : Scanner) (s : State) : State :=
  s.withAlm fun a =>
    match l with
    | .load => { a with load := c }
    | .entry => { a with entry := c }
    | .exit => { a with exit := c }

/-- A complete record is handed to the block that uses it (R210). -/
def handRecord (l : ScanLine) (chars : List Byte) (s : State) : State :=
  match l with
  | .load => takeLoad chars s
  | .entry => takeEntry chars s
  | .exit => takeExit chars s

/-- A record fails: one SCANNER onset, and the line discards up to the next CR (R209). -/
def discardRecord (l : ScanLine) (s : State) : State :=
  onset (aScanner l) true (setScanner l { buffer := [], discarding := true } s)

/-- A character on a scanner line (R209). -/
def takeChar (l : ScanLine) (c : Byte) (s : State) : State :=
  let k := scanner l s
  if c = lf then s
  else if c = cr then
    let t := setScanner l { buffer := [], discarding := false } s
    if k.discarding || k.buffer.isEmpty then t else handRecord l k.buffer t
  else if k.discarding then s
  else if k.buffer.length < 32 then setScanner l { k with buffer := k.buffer ++ [c] } s
  else discardRecord l s

/-- A framing fault on a scanner line (R209). -/
def framingFault (l : ScanLine) (s : State) : State := if (scanner l s).discarding then s else discardRecord l s

/-! ## Acknowledgement and drill -/

/-- An accepted acknowledgement, told to the owners of FLASH_HOT and ENCODER where the instance becomes IDLE
(R199, R201). -/
def acknowledgeAt (i : Nat) (s : State) : State :=
  let was := ownerIdle i s
  let s := acknowledge i s
  if was || !ownerIdle i s then s
  else if i = aFlashHot then endHotWait s
  else if i = aEncoder then encoderIdle s
  else s

/-- An accepted DRILL_STEP (R207, R208). -/
def stepDrill (s : State) : State :=
  if s.alm.drill = 7 then endDrill s
  else
    let s := s.withAlm fun a => { a with drill := a.drill + 1 }
    (drillOnsets s.alm.drill).foldl (fun t i => simulate i t) s

end Sys2Proof.Machine
end

