-- ==== Sys2Proof/Machine/Layout.lean ====
section
/-!
DEFINITION. The bodies that the part sends: the codes of R229, the order, image and garment bodies (R231, R232),
the notices (R221), the settings (R230), the identification (R223) and the status (R224).
-/

namespace Sys2Proof.Machine

/-! ## Codes (R228, R229) -/

def Status.code : Status → Nat
  | .ok => 0x00
  | .clamped => 0x01
  | .badCrc => 0x10
  | .badLength => 0x11
  | .unknownKind => 0x12
  | .range => 0x20
  | .state => 0x21
  | .notOpen => 0x22
  | .full => 0x23
  | .notFound => 0x24
  | .exists_ => 0x25
  | .inUse => 0x26
  | .busy => 0x27
  | .locked => 0x28
  | .stale => 0x29
  | .badData => 0x2A

def Priority.code : Priority → Nat
  | .normal => 0
  | .rush => 1

def OrderState.code : OrderState → Nat
  | .open_ => 0
  | .complete => 1
  | .failed => 2
  | .cancelling => 3

def ImageState.code : ImageState → Nat
  | .open_ => 0
  | .closing => 1
  | .ready => 2
  | .damaged => 3

def Basis.code : Basis → Nat
  | .none => 0
  | .white => 1
  | .all => 2

def LineState.code : LineState → Nat
  | .idle => 0
  | .running => 1
  | .draining => 2
  | .stopped => 3
  | .halted => 4

def Hold.code : Hold → Nat
  | .none => 0
  | .fluidLow => 1
  | .preheat => 2
  | .flashHot => 3
  | .encoder => 4
  | .tunnelFull => 5
  | .spacing => 6
  | .cureWait => 7

def LoadLamp.code : LoadLamp → Nat
  | .off => 0
  | .confirm => 1
  | .ready => 2
  | .bound => 3
  | .refused => 4

def EntryLamp.code : EntryLamp → Nat
  | .off => 0
  | .wait => 1
  | .go => 2
  | .refused => 3

/-- The last scan result: 0 while absent (R227, R229). -/
def scanCode : Option ScanResult → Nat
  | none => 0
  | some .bound => 1
  | some .badSku => 2
  | some .platenBusy => 3
  | some .tableFull => 4
  | some .noDemand => 5

def Stage.code : Stage → Nat
  | .bound => 0
  | .loaded => 1
  | .pretreated => 2
  | .flashed => 3
  | .printed => 4
  | .atUnload => 5
  | .inTunnel => 6
  | .inExit => 7
  | .recureWait => 8
  | .sorted => 9

def verificationCode : Option Verification → Nat
  | none => 0
  | some .verified => 1
  | some .unverified => 2
  | some .missing => 3

def outcomeCode : Option CureOutcome → Nat
  | none => 0
  | some .pass => 1
  | some .undercured => 2
  | some .scorched => 3
  | some .cancelled => 4
  | some .dropped => 5

def Route.code : Route → Nat
  | .bin n => n
  | .reject => 25
  | .recure => 26
  | .manual => 27
  | .single => 28

def routeCode : Option Route → Nat
  | none => 0
  | some r => r.code

def Defect.code : Defect → Nat
  | .pretreatAborted => 1
  | .printAborted => 2
  | .imageGone => 3
  | .storeEcc => 4
  | .linesLost => 5
  | .lostDots => 6
  | .missing => 7

def Warning.code : Warning → Nat
  | .underdried => 1
  | .heavy => 2
  | .cureRange => 3
  | .noBin => 4

def Framer.code : Framer → Nat
  | .acquire => 0
  | .sync => 1
  | .los => 2

def BinState.code : BinState → Nat
  | .free => 0
  | .filling => 1
  | .complete => 2

def AlarmState.code : AlarmState → Nat
  | .idle => 0
  | .active => 1
  | .latched => 2

def Sense.code : Sense → Nat
  | .edge => 0
  | .edgeLevel => 1

def LossRule.code : LossRule → Nat
  | .twoOfFour => 0
  | .twoOfFive => 1

def Reserve.code : Reserve → Nat
  | .zero => 0
  | .sixteenth => 1
  | .eighth => 2
  | .quarter => 3
  | .half => 4

def Contents.code : Contents → Nat
  | .empty => 0
  | .unknown => 1
  | .garment _ => 2

/-- The serial of platen contents, 0 unless GARMENT (R224). -/
def Contents.serial : Contents → Nat
  | .garment n => n
  | _ => 0

def IndexState.code : IndexState → Nat
  | .none => 0
  | .moving => 1
  | .paused => 2

def Transfer.code : Transfer → Nat
  | .none => 0
  | .running => 1
  | .stopped => 2

def Bar.code : Bar → Nat
  | .parked => 0
  | .out => 1
  | .back => 2

def PretreatJob.code : PretreatJob → Nat
  | .none => 0
  | .held => 1
  | .waiting => 2
  | .spraying => 3
  | .cut => 4

def FlashJob.code : FlashJob → Nat
  | .none => 0
  | .cold => 1
  | .hot => 2
  | .pressing => 3
  | .cut => 4

def Shuttle.code : Shuttle → Nat
  | .homing => 0
  | .home => 1
  | .forward => 2
  | .return_ => 3
  | .stopped => 4

def PrintJob.code : PrintJob → Nat
  | .none => 0
  | .waiting => 1
  | .spit => 2
  | .stroke => 3
  | .return_ => 4
  | .held => 5
  | .cut => 6

/-- A nozzle's state: OK 0, WEAK 1, DEAD 2. -/
def nozzleCode : Option NozzleFault → Nat
  | none => 0
  | some .weak => 1
  | some .dead => 2

/-! ## Fields -/

/-- An enumeration, 1 byte (R227). -/
abbrev code (n : Nat) : List Byte := be 1 n

/-- A flag, 1 byte (R227). -/
def flag (b : Bool) : List Byte := [flagByte b]

/-- A set of defects or warnings: a count byte, then one code byte a member (R227). -/
def setBytes {α : Type} (f : α → Nat) (l : List α) : List Byte := be 1 l.length ++ l.flatMap fun x => be 1 (f x)

/-- A list: its count in `width` bytes, then its entries (R227). -/
def listBytes {α : Type} (width : Nat) (f : α → List Byte) (l : List α) : List Byte := be width l.length ++ l.flatMap f

/-- A profile, 38 bytes (R227). -/
def profileBytes (p : Profile) : List Byte :=
  code p.basis.code ++ be 2 p.pFloor ++ be 2 p.tBase ++ be 2 p.tGain ++ be 2 p.tMin ++ be 2 p.tMax ++
  be 1 p.dwell ++ be 2 p.tfMin ++ be 2 p.tfMax ++ be 2 p.lineLimit ++ be 4 p.dotLimit ++ flag p.markOn ++
  be 2 p.markX ++ be 2 p.markY ++ be 2 p.tTh ++ be 4 p.dBase ++ be 1 p.kInk ++ be 4 p.dMax

/-- The cure settings, 20 bytes (R227). -/
def cureBytes (c : CureSettings) : List Byte :=
  c.tSet.flatMap (be 2) ++ be 2 c.tTrip ++ be 2 c.band ++ be 1 c.samples ++ be 1 c.gain ++ be 2 c.dMin ++
  be 2 c.dMax ++ be 2 c.sMin ++ be 2 c.sMax

/-- The spit settings, 16 bytes (R227). -/
def spitBytes (p : SpitSettings) : List Byte :=
  be 1 p.period ++ p.masks.flatMap (fun m => be 2 m.toNat) ++ p.counts.flatMap (be 1)

/-! ## Objects -/

/-- The order body (R231). -/
def orderBytes (o : Order) : List Byte :=
  be 4 o.id ++ code o.priority.code ++ code o.state.code ++ flag o.withdrawn ++ be 1 (o.bin.getD 0) ++ flag o.split ++
  be 1 o.counts.waitImage ++ be 1 o.counts.queued ++ be 1 o.counts.inLine ++ be 1 o.counts.done ++
  be 1 o.counts.failed ++
  listBytes 1 (fun i => be 8 i.sku ++ be 4 i.image ++ be 1 i.profile ++ be 1 i.quantity ++ be 1 i.reprints) o.items

/-- The counts of PAGE, BLANK and LOST entries (R48). -/
def planeCounts (l : List Plane) : Nat × Nat × Nat :=
  ((pagesOf l).length, l.countP (· == .blank), l.countP (· == .lost))

/-- The image body without the cell grid, 56 bytes (R231). -/
def imageBytes (i : Image) : List Byte :=
  let n := planeCounts i.planes
  let c := i.coverage.getD .zero
  be 4 i.id ++ be 2 i.w ++ be 2 i.h ++ be 2 i.x0 ++ be 2 i.y0 ++ be 1 i.channels.toNat ++ flag i.rush ++
  code i.state.code ++ flag i.removed ++ be 1 (bandsOf i.h) ++ be 2 n.1 ++ be 2 n.2.1 ++ be 2 n.2.2 ++
  be 2 i.queuedRefs ++ be 1 i.garmentRefs ++ flag i.printActive ++ flag i.coverage.isSome ++
  c.units.flatMap (be 4) ++ be 4 c.total ++ be 4 c.inkK

/-- The cell grid, lane-major, 832 bytes (R231). -/
def gridBytes (i : Image) : List Byte :=
  (i.coverage.getD .zero).cells.flatMap fun c => be 4 c.white ++ be 4 c.colour

/-- A stroke record, 20 bytes (R232). -/
def strokeBytes (r : StrokeRec) : List Byte :=
  be 1 r.number ++ be 2 r.first ++ be 2 r.last ++ be 1 r.framing ++ be 2 r.skipped ++ be 2 r.blanked ++
  be 4 r.lostDots ++ be 4 r.tickles ++ code r.framer.code ++ flag r.aborted

/-- A location: its kind and its value (R232). -/
def locationBytes : Location → List Byte
  | .absent => code 0 ++ be 2 0
  | .platen n => code 1 ++ be 2 n
  | .belt mm => code 2 ++ be 2 mm
  | .recure => code 3 ++ be 2 0

/-- The garment body (R232). The model's choice: with the presence flag 0 the four image id bytes are a free value (log
entry 43). -/
def garmentBytes (serial : Nat) (g : Garment) : List Byte :=
  be 2 serial ++ be 4 g.order ++ be 1 g.item ++ be 1 g.index ++ be 8 g.sku ++ flag g.image.isSome ++
  be 4 (g.image.getD (Config.absentImageId serial).toNat) ++ profileBytes g.profile ++ code g.stage.code ++ locationBytes g.location ++
  setBytes Defect.code g.defects ++ setBytes Warning.code g.warnings ++ be 2 g.dose ++ be 1 g.dwell ++
  listBytes 1 strokeBytes g.strokes ++ be 4 g.d ++ be 4 g.dReq ++ be 4 g.dMax ++ be 1 g.recures ++
  code (verificationCode g.verification) ++ code (outcomeCode g.outcome) ++ code (routeCode g.route)

/-- The body of BIN_NOTICE (R232). -/
def binBytes (n : Nat) (b : Bin) : List Byte := be 1 n ++ code b.state.code ++ be 4 (b.order.getD 0) ++ be 1 b.count

/-- The body of ALARM_NOTICE (R232). -/
def alarmBytes (i : Nat) (s : State) : List Byte :=
  let a := alarm i s
  be 1 (kindOf i).1 ++ be 1 (kindOf i).2 ++ code a.state.code ++ flag a.present ++ flag a.acked ++ be 1 a.count ++
  flag a.simulated ++ code (senseAt i s).code

/-- The body of LINE_NOTICE (R232). -/
def lineBody (s : State) : List Byte :=
  code s.car.line.code ++ code s.car.load.hold.code ++ code s.car.pretreat.hold.code ++ code s.car.flash.hold.code ++
  code s.car.print.hold.code ++ code s.car.unload.hold.code ++ code s.car.lamp.code ++ code s.exs.lamp.code ++
  code (scanCode s.car.lastScan) ++ be 2 s.exs.foreign ++ be 2 s.exs.unknown

/-! ## Settings (R230) -/

/-- The exempt mask of channel `c`: bit 12 r + k for module k of row r (R230). -/
def exemptMask (exempt : BitVec 120) (c : Nat) : Nat := (exempt.extractLsb' (24 * c) 24).toNat

/-- Every line setting, in code order and within a code in index order: 67 entries (R230). -/
def settingEntries (l : LineSettings) : List SettingEntry :=
  let one := fun c v => [({ code := c, index := 0, value := v } : SettingEntry)]
  let many := fun (c : Nat) (base : Nat) (vs : List Nat) =>
    vs.zipIdx.map fun p => ({ code := c, index := base + p.2, value := p.1 } : SettingEntry)
  one 0x01 l.lineId ++ one 0x02 l.reprintLimit ++ one 0x03 l.recureLimit ++ one 0x04 l.reserve.code ++
  one 0x05 l.lossRule.code ++ one 0x06 l.markTol ++ one 0x07 l.autoResync.toNat ++ one 0x08 l.shuttleSpeed ++
  one 0x09 l.tickle ++ many 0x0A 0 ((List.range 5).map (exemptMask l.exempt)) ++ one 0x0B l.barSpeed ++
  one 0x0C l.laneMult ++ many 0x0D 0 l.laneDelays ++ one 0x0E l.flow ++ one 0x0F l.tankCap ++
  one 0x10 l.tankReserve ++ one 0x11 l.flashWait ++ one 0x12 l.bins ++ one 0x13 l.guardMask.toNat ++
  many 0x14 1 (l.senses.map Sense.code) ++ many 0x15 0 (l.masks.map Bool.toNat) ++ one 0x16 l.lock.toNat

/-- One entry, 6 bytes (R230). -/
def settingBytes (e : SettingEntry) : List Byte := be 1 e.code ++ be 1 e.index ++ be 4 e.value

/-- The content of the CONFIG_GET reply (R63, R230). -/
def configBytes (p : Prf) : List Byte :=
  listBytes 2 settingBytes (settingEntries p.line) ++ cureBytes p.cure ++ spitBytes p.spit

/-! ## Identification and status -/

/-- The content of the IDENT reply (R223). -/
def identBytes : List Byte :=
  [0x4F, 0x52, 0x4D, 0x54] ++ [0x44, 0x47, 0x2D, 0x38] ++ [0x41] ++
  be 1 Config.orderSlots ++ be 2 Config.unitRecords ++ be 1 Config.imageSlots ++ be 2 Config.storePages ++
  be 1 Config.garmentRecords ++ be 1 Config.tunnelCapacity ++ be 1 Config.recureCapacity ++ be 1 Config.binCount ++
  be 1 Config.profileCount ++ be 1 Config.alarmInstances ++ be 2 Config.noticeCapacity ++ be 2 Config.largestBody

/-- The number of order records that are withdrawn, or not. -/
def ordersBy (withdrawn : Bool) (s : State) : Nat := s.ord.orders.countP fun p => p.2.withdrawn == withdrawn

/-- A station's pair: WORKING 0 or RELEASED 1, and its hold reason (R224, R229). -/
def stationBytes (r : StationRec) : List Byte := flag (!r.working) ++ code r.hold.code

/-- The shuttle position as 2 bytes; a position outside 0..65,535 is sent as a free value (log entry 12). -/
def positionBytes (pos : Int) : List Byte :=
  if 0 ≤ pos ∧ pos < 65536 then be 2 pos.toNat else be 2 (Config.unstatedPosition pos).toNat

/-- The fields of one rider: serial, position, D, D_req and D_max (R170). -/
def riderBytes (serial mm : Nat) (g : Option Garment) : List Byte :=
  be 2 serial ++ be 2 mm ++ match g with
    | some g => be 4 g.d ++ be 4 g.dReq ++ be 4 g.dMax
    | none => be 4 0 ++ be 4 0 ++ be 4 0

/-- One zone: reading and fault, duty, T_set, and the four run counts (R170). -/
def zoneBytes (z : Nat) (s : State) : List Byte :=
  let k := zoneAt z s
  be 2 k.reading ++ flag k.faulted ++ be 2 k.duty ++ be 2 (tSetAt z s) ++ be 1 k.tripBegin ++ be 1 k.tripEnd ++
  be 1 k.lowBegin ++ be 1 k.lowEnd

/-- An exit window entry (R192). -/
def windowBytes (s : State) (r : Rider) : List Byte :=
  be 2 r.serial ++ be 2 r.mm ++ match garment r.serial s with
    | some g => code (outcomeCode g.outcome) ++ code (verificationCode g.verification)
    | none => code 0 ++ code 0

/-- The instances of a class that are not IDLE (R203). -/
def notIdle (cls : Nat) (s : State) : Nat :=
  (List.range 22).countP fun i => alarmClass i == cls && (alarm i s).state != .idle

def statusLnk (s : State) : List Byte := be 2 s.lnk.notices.length

def statusOrd (s : State) : List Byte :=
  be 1 (ordersBy false s) ++ be 1 (ordersBy true s) ++ be 2 (Config.unitRecords - s.ord.units.length) ++
  be 2 s.ord.queue.length ++ be 4 s.ord.seq

def statusIms (s : State) : List Byte :=
  be 2 (freeOrdinary s).length ++ be 2 (freeReserve s).length ++ be 2 s.ims.retired.length ++ be 2 s.ims.corrected

def statusCar (s : State) : List Byte :=
  code s.car.line.code ++
  s.car.platens.flatMap (fun p => be 1 p.number ++ code p.contents.code ++ be 2 p.contents.serial) ++
  stationBytes s.car.load ++ stationBytes s.car.pretreat ++ stationBytes s.car.flash ++ stationBytes s.car.print ++
  stationBytes s.car.unload ++ code s.car.index.code ++ be 2 (indexMs s) ++ code s.car.transfer.code ++
  be 1 s.car.garments.length ++ be 2 s.car.lastSerial

def statusPtr (s : State) : List Byte :=
  be 8 s.ptr.tank ++ code s.ptr.bar.code ++ code s.ptr.job.code ++ be 2 s.ptr.flashReading ++ flag s.ptr.flashFaulted ++
  flag s.ptr.pressClosed ++ be 2 ((s.ptr.target.map Prod.fst).getD 0) ++ be 2 ((s.ptr.target.map Prod.snd).getD 0) ++
  code s.ptr.flashJob.code

def statusShf (s : State) : List Byte :=
  code s.shf.shuttle.code ++ positionBytes s.shf.pos ++ code s.shf.job.code ++ be 1 s.shf.stroke ++
  code s.shf.framer.code ++ be 1 s.shf.framing ++ be 2 s.shf.skipped ++ be 2 s.shf.blanked

def statusFdp (s : State) : List Byte :=
  (List.range 5).flatMap (fun c => be 2 (uncovered c s.fdp.nozzles)) ++ be 1 s.fdp.spitCounter ++
  be 1 s.prf.spit.period ++ be 4 ((s.fdp.stroke.map Stroke.lostDots).getD 0) ++
  be 4 ((s.fdp.stroke.map Stroke.tickles).getD 0) ++ be 2 ((s.fdp.stroke.map fun k => k.lost.length).getD 0)

/-- The CTC section (R224, R170). The entrant stands as its serial after the claim slots (R224), and with its five
fields after the tunnel list members, at position 0 mm (R170, R164); all are 0 while it is empty. The place of the five
fields is the model's reading (log entry 20). -/
def statusCtc (s : State) : List Byte :=
  (List.range 3).flatMap (fun z => zoneBytes z s) ++ be 2 s.ctc.selected ++ be 2 (commandedSpeed s) ++
  flag s.ctc.gateHeld ++ be 2 (s.ctc.unloadClaim.getD 0) ++ be 2 (s.ctc.refeedClaim.getD 0) ++
  be 2 (s.ctc.entrant.getD 0) ++ listBytes 1 (fun r => riderBytes r.serial r.mm (garment r.serial s)) s.ctc.tunnel ++
  riderBytes (s.ctc.entrant.getD 0) 0 (s.ctc.entrant.bind fun n => garment n s)

def statusExs (s : State) : List Byte :=
  listBytes 1 (windowBytes s) (exitWindow s) ++
  listBytes 1 (fun n => be 2 n ++ be 4 (((garment n s).map Garment.d).getD 0)) s.exs.recure ++
  be 2 (s.ctc.refeedClaim.getD 0) ++ code s.exs.reason.code ++ code s.exs.lamp.code ++ code s.exs.diverter.code ++
  be 2 s.exs.foreign ++ be 2 s.exs.unknown ++ be 2 s.exs.malformed ++
  s.exs.bins.zipIdx.flatMap (fun p => binBytes (p.2 + 1) p.1) ++ be 1 s.prf.line.bins

def statusAlm (s : State) : List Byte :=
  be 1 (notIdle 0 s) ++ be 1 (notIdle 1 s) ++ be 1 (notIdle 2 s) ++ be 1 s.alm.drill ++ flag s.pins.estop ++
  (List.range 4).flatMap (fun g => flag (s.pins.guards.getLsbD g)) ++ be 1 s.prf.line.guardMask.toNat ++
  flag (alarm aGuard s).present

/-- The content of the STATUS_GET reply (R224). -/
def statusBytes (s : State) : List Byte :=
  statusLnk s ++ statusOrd s ++ statusIms s ++ statusCar s ++ statusPtr s ++ statusShf s ++ statusFdp s ++ statusCtc s ++
  statusExs s ++ statusAlm s

/-! ## Notices (R220, R221) -/

/-- A notice frame: its tag is 0x00 (R213). -/
def noticeFrame (kind : Byte) (body : List Byte) : Frame := { kind := kind, tag := 0, body := body }

/-- The notice of a reference, built from the object's state now, and whether its sending frees the object. `none` for
an object that is no longer there (log entry 8). -/
def buildNotice (r : Ref) (s : State) : Option (Frame × Bool) :=
  match r with
  | .order slot => (tabGet slot s.ord.orders).map fun o => (noticeFrame 0xE0 (orderBytes o), o.withdrawn)
  | .image slot => (tabGet slot s.ims.images).map fun i => (noticeFrame 0xE1 (imageBytes i), i.removed)
  | .garment n => (garment n s).map fun g => (noticeFrame 0xE2 (garmentBytes n g), g.stage == .sorted)
  | .bin n => some (noticeFrame 0xE3 (binBytes n (binAt n s)), false)
  | .alarm i => some (noticeFrame 0xE4 (alarmBytes i s), false)
  | .line => some (noticeFrame 0xE5 (lineBody s), false)

end Sys2Proof.Machine
end

