-- ==== Sys2Proof/Machine/Frames.lean ====
section
/-!
DEFINITION. Frames (R213), the receive parser byte by byte (R214), the link checks (R215), and the bodies of the
requests both ways (R228, R230, R231): `requestOf` reads a body, `bodyOf` writes one.
-/

namespace Sys2Proof.Machine

/-! ## CRC and frames (R213) -/

/-- One bit of the CRC with the polynomial 0x1021, most significant bit first. -/
def crcBit (c : Crc) : Crc := if c.msb then (c <<< 1) ^^^ 0x1021 else c <<< 1

/-- One byte of the CRC. -/
def crcByte (c : Crc) (b : Byte) : Crc :=
  crcBit (crcBit (crcBit (crcBit (crcBit (crcBit (crcBit (crcBit (c ^^^ (b.zeroExtend 16 <<< 8)))))))))

/-- The CRC-16 of a string of bytes, from 0xFFFF (R213). -/
def crc16 (bs : List Byte) : Crc := bs.foldl crcByte 0xFFFF

/-- What the CRC covers: kind, tag, length and body (R213). -/
def coveredBytes (kind tag : Byte) (body : List Byte) : List Byte := [kind, tag] ++ be 2 body.length ++ body

/-- The CRC of a frame (R213). -/
def frameCrc (kind tag : Byte) (body : List Byte) : Crc := crc16 (coveredBytes kind tag body)

/-- The bytes of a frame as the part sends it (R213). -/
def frameBytes (f : Frame) : List Byte :=
  [0xA5, 0x3C] ++ coveredBytes f.kind f.tag f.body ++ be 2 (frameCrc f.kind f.tag f.body).toNat

/-! ## The parser (R214) -/

/-- A complete frame as received: kind, tag, body and CRC. -/
structure Received where
  kind : Byte
  tag : Byte
  body : List Byte
  crc : Crc
deriving DecidableEq, Repr

/-- A header is plausible when its kind lies in 0x01..0x5F and its length is at most 60,000 bytes (R214). -/
def plausible (kind : Byte) (length : Nat) : Bool :=
  decide (1 ≤ kind.toNat ∧ kind.toNat ≤ 0x5F ∧ length ≤ Config.largestBody)

/-- One byte in HUNT or SYNC, or the first three of a header (R214). -/
def parseByte (p : Parser) (b : Byte) : Parser :=
  match p with
  | .hunt => if b = 0xA5 then .sync else .hunt
  | .sync => if b = 0x3C then .header [] else if b = 0xA5 then .sync else .hunt
  | .header got => .header (got ++ [b])
  | .body k t n got => .body k t n (got ++ [b])

/-- The header test (R214): an implausible header is searched again from HUNT, starting with its own kind byte. -/
def headerTest (kind tag hi lo : Byte) : Parser :=
  if plausible kind (ofBe [hi, lo]) then .body kind tag (ofBe [hi, lo]) []
  else [kind, tag, hi, lo].foldl parseByte .hunt

/-- One byte read (R214): the parser after it, and the frame it completes. -/
def feed (p : Parser) (b : Byte) : Parser × Option Received :=
  match p, parseByte p b with
  | .header _, .header [k, t, hi, lo] => (headerTest k t hi lo, none)
  | .body _ _ _ _, .body k t n got =>
    if got.length = n + 2 then
      (.hunt, some { kind := k, tag := t, body := got.take n, crc := BitVec.ofNat 16 (ofBe (got.drop n)) })
    else (.body k t n got, none)
  | _, q => (q, none)

/-! ## Kinds (R228) -/

/-- How long the body of a kind may be (R228). -/
inductive BodyLength where
  | fixed (n : Nat)
  | counted (head countAt countWidth entry : Nat)
  | atLeast (n : Nat)
deriving DecidableEq, Repr

/-- The kinds table (R228): the body length that a request kind allows. -/
def kindLength (kind : Nat) : Option BodyLength :=
  match kind with
  | 0x01 | 0x02 | 0x03 => some (.fixed 0)
  | 0x10 => some (.counted 1 0 1 6)
  | 0x11 => some (.fixed 0)
  | 0x12 => some (.fixed 39)
  | 0x13 => some (.fixed 1)
  | 0x14 => some (.fixed 20)
  | 0x15 => some (.fixed 16)
  | 0x16 => some (.counted 2 0 2 7)
  | 0x17 => some (.fixed 2)
  | 0x20 => some (.fixed 14)
  | 0x21 => some (.atLeast 3)
  | 0x22 | 0x23 => some (.fixed 0)
  | 0x24 | 0x25 => some (.fixed 4)
  | 0x30 => some (.counted 6 5 1 14)
  | 0x31 | 0x32 | 0x33 => some (.fixed 4)
  | 0x38 | 0x39 | 0x3A => some (.fixed 2)
  | 0x40 => some (.fixed 0)
  | 0x48 | 0x49 | 0x4A => some (.fixed 0)
  | 0x50 => some (.fixed 2)
  | 0x51 => some (.fixed 3)
  | 0x52 => some (.fixed 0)
  | _ => none

/-- The bytes `at` to `at + n - 1` of a body, as a number. -/
def field (body : List Byte) (start n : Nat) : Nat := ofBe ((body.drop start).take n)

/-- A body length that a kind allows; a body too short to hold its count field is not one (R215). -/
def BodyLength.allows (l : BodyLength) (body : List Byte) : Bool :=
  match l with
  | .fixed n => body.length == n
  | .counted head start width entry =>
    decide (start + width ≤ body.length) && body.length == head + entry * field body start width
  | .atLeast n => decide (n ≤ body.length)

/-- The checks of LNK on a complete frame, in order (R215): the status of the first that fails. -/
def linkCheck (f : Received) : Option Status :=
  if f.crc ≠ frameCrc f.kind f.tag f.body then some .badCrc
  else match kindLength f.kind.toNat with
    | none => some .unknownKind
    | some l => if l.allows f.body then none else some .badLength

/-! ## Bodies -/

/-- Cut a body into entries of `size` bytes; `n` entries are read. -/
def chunks (size : Nat) : Nat → List Byte → List (List Byte)
  | 0, _ => []
  | n + 1, body => body.take size :: chunks size n (body.drop size)

def settingEntryOf (body : List Byte) : SettingEntry :=
  { code := field body 0 1, index := field body 1 1, value := field body 2 4 }

def nozzleEntryOf (body : List Byte) : NozzleEntry :=
  { channel := field body 0 1, row := field body 1 1, first := field body 2 2, count := field body 4 2,
    state := field body 6 1 }

def itemBodyOf (body : List Byte) : ItemBody :=
  { sku := field body 0 8, image := field body 8 4, profile := field body 12 1, quantity := field body 13 1 }

def profileBodyOf (body : List Byte) : ProfileBody :=
  { basis := field body 0 1, pFloor := field body 1 2, tBase := field body 3 2, tGain := field body 5 2,
    tMin := field body 7 2, tMax := field body 9 2, dwell := field body 11 1, tfMin := field body 12 2,
    tfMax := field body 14 2, lineLimit := field body 16 2, dotLimit := field body 18 4,
    markOn := field body 22 1, markX := field body 23 2, markY := field body 25 2, tTh := field body 27 2,
    dBase := field body 29 4, kInk := field body 33 1, dMax := field body 34 4 }

def cureBodyOf (body : List Byte) : CureBody :=
  { tSet1 := field body 0 2, tSet2 := field body 2 2, tSet3 := field body 4 2, tTrip := field body 6 2,
    band := field body 8 2, samples := field body 10 1, gain := field body 11 1, dMin := field body 12 2,
    dMax := field body 14 2, sMin := field body 16 2, sMax := field body 18 2 }

def spitBodyOf (body : List Byte) : SpitBody :=
  { period := field body 0 1, masks := (List.range 5).map (fun c => field body (1 + 2 * c) 2),
    counts := (List.range 5).map (fun c => field body (11 + c) 1) }

/-- The request that a frame carries once it has passed the link checks (R215, R228, R230, R231). `key` is the level
of KEY at its taking (R52). -/
def requestOf (key : Bool) (kind tag : Byte) (body : List Byte) : Option Instr :=
  match kind.toNat with
  | 0x01 => some (.ident tag)
  | 0x02 => some (.statusGet tag)
  | 0x03 => some (.reset tag)
  | 0x10 => some (.configSet tag key ((chunks 6 (field body 0 1) (body.drop 1)).map settingEntryOf))
  | 0x11 => some (.configGet tag)
  | 0x12 => some (.profileSet tag key (field body 0 1) (profileBodyOf (body.drop 1)))
  | 0x13 => some (.profileGet tag (field body 0 1))
  | 0x14 => some (.cureSet tag (cureBodyOf body))
  | 0x15 => some (.spitSet tag (spitBodyOf body))
  | 0x16 => some (.nozzleSet tag ((chunks 7 (field body 0 2) (body.drop 2)).map nozzleEntryOf))
  | 0x17 => some (.nozzleGet tag (field body 0 1) (field body 1 1))
  | 0x20 => some (.imageOpen tag (field body 0 4) (field body 4 2) (field body 6 2) (field body 8 2)
      (field body 10 2) (field body 12 1) (field body 13 1))
  | 0x21 => some (.band tag (field body 0 1) (field body 1 1) (field body 2 1) (body.drop 3))
  | 0x22 => some (.imageClose tag)
  | 0x23 => some (.imageAbort tag)
  | 0x24 => some (.imageDelete tag (field body 0 4))
  | 0x25 => some (.imageGet tag (field body 0 4))
  | 0x30 => some (.orderAdd tag (field body 0 4) (field body 4 1)
      ((chunks 14 (field body 5 1) (body.drop 6)).map itemBodyOf))
  | 0x31 => some (.orderRush tag (field body 0 4))
  | 0x32 => some (.orderCancel tag (field body 0 4))
  | 0x33 => some (.orderGet tag (field body 0 4))
  | 0x38 => some (.garmentGet tag (field body 0 2))
  | 0x39 => some (.recureDrop tag (field body 0 2))
  | 0x3A => some (.binClear tag (field body 0 1) (field body 1 1))
  | 0x40 => some (.fluidFilled tag)
  | 0x48 => some (.lineStart tag)
  | 0x49 => some (.lineStop tag)
  | 0x4A => some (.lineHalt tag)
  | 0x50 => some (.alarmGet tag (field body 0 1) (field body 1 1))
  | 0x51 => some (.alarmAck tag (field body 0 1) (field body 1 1) (field body 2 1))
  | 0x52 => some (.drillStep tag)
  | _ => none

/-- What a received frame is: a request, or a frame that the part answers with a link status (R215). -/
def commandOf (key : Bool) (f : Received) : Option Instr :=
  match linkCheck f with
  | none => requestOf key f.kind f.tag f.body
  | some _ => some (.frameRejected f.kind f.tag f.body f.crc)

def nozzleEntryBytes (e : NozzleEntry) : List Byte :=
  be 1 e.channel ++ be 1 e.row ++ be 2 e.first ++ be 2 e.count ++ be 1 e.state

def itemBodyBytes (i : ItemBody) : List Byte := be 8 i.sku ++ be 4 i.image ++ be 1 i.profile ++ be 1 i.quantity

def profileBodyBytes (p : ProfileBody) : List Byte :=
  be 1 p.basis ++ be 2 p.pFloor ++ be 2 p.tBase ++ be 2 p.tGain ++ be 2 p.tMin ++ be 2 p.tMax ++ be 1 p.dwell ++
  be 2 p.tfMin ++ be 2 p.tfMax ++ be 2 p.lineLimit ++ be 4 p.dotLimit ++ be 1 p.markOn ++ be 2 p.markX ++
  be 2 p.markY ++ be 2 p.tTh ++ be 4 p.dBase ++ be 1 p.kInk ++ be 4 p.dMax

def cureBodyBytes (c : CureBody) : List Byte :=
  be 2 c.tSet1 ++ be 2 c.tSet2 ++ be 2 c.tSet3 ++ be 2 c.tTrip ++ be 2 c.band ++ be 1 c.samples ++ be 1 c.gain ++
  be 2 c.dMin ++ be 2 c.dMax ++ be 2 c.sMin ++ be 2 c.sMax

def spitBodyBytes (b : SpitBody) : List Byte := be 1 b.period ++ b.masks.flatMap (be 2) ++ b.counts.flatMap (be 1)

/-- The kind, tag and body of a request as the host frames it (R228); `none` for a command that is no request. -/
def bodyOf (i : Instr) : Option (Byte × Byte × List Byte) :=
  match i with
  | .powerOn _ _ => none
  | .ident t => some (0x01, t, [])
  | .statusGet t => some (0x02, t, [])
  | .reset t => some (0x03, t, [])
  | .configSet t _ es => some (0x10, t, be 1 es.length ++ es.flatMap settingBytes)
  | .configGet t => some (0x11, t, [])
  | .profileSet t _ id b => some (0x12, t, be 1 id ++ profileBodyBytes b)
  | .profileGet t id => some (0x13, t, be 1 id)
  | .cureSet t b => some (0x14, t, cureBodyBytes b)
  | .spitSet t b => some (0x15, t, spitBodyBytes b)
  | .nozzleSet t es => some (0x16, t, be 2 es.length ++ es.flatMap nozzleEntryBytes)
  | .nozzleGet t c r => some (0x17, t, be 1 c ++ be 1 r)
  | .imageOpen t id w h x y c r =>
    some (0x20, t, be 4 id ++ be 2 w ++ be 2 h ++ be 2 x ++ be 2 y ++ be 1 c ++ be 1 r)
  | .band t c b e d => some (0x21, t, be 1 c ++ be 1 b ++ be 1 e ++ d)
  | .imageClose t => some (0x22, t, [])
  | .imageAbort t => some (0x23, t, [])
  | .imageDelete t id => some (0x24, t, be 4 id)
  | .imageGet t id => some (0x25, t, be 4 id)
  | .orderAdd t id p is => some (0x30, t, be 4 id ++ be 1 p ++ be 1 is.length ++ is.flatMap itemBodyBytes)
  | .orderRush t id => some (0x31, t, be 4 id)
  | .orderCancel t id => some (0x32, t, be 4 id)
  | .orderGet t id => some (0x33, t, be 4 id)
  | .garmentGet t n => some (0x38, t, be 2 n)
  | .recureDrop t n => some (0x39, t, be 2 n)
  | .binClear t b f => some (0x3A, t, be 1 b ++ be 1 f)
  | .fluidFilled t => some (0x40, t, [])
  | .lineStart t => some (0x48, t, [])
  | .lineStop t => some (0x49, t, [])
  | .lineHalt t => some (0x4A, t, [])
  | .alarmGet t k n => some (0x50, t, be 1 k ++ be 1 n)
  | .alarmAck t k n c => some (0x51, t, be 1 k ++ be 1 n ++ be 1 c)
  | .drillStep t => some (0x52, t, [])
  | .frameRejected k t b _ => some (k, t, b)
  | .implausibleHeader _ _ _ _ => none
  | .replyRead => none
  | .noticeSendStart => none
  | .noticeSent => none
  | .usbBusReset => none
  | .usbConfigured => none
  | .loadScan => none
  | .entryRecord => none
  | .exitRecord => none
  | .scannerFramingFault _ => none
  | .scannerOverlong _ _ => none
  | .footswitchPress => none
  | .skipPress => none
  | .estopChange _ => none
  | .guardChange _ _ => none
  | .indexStart => none
  | .indexSensor => none
  | .indexTimeout => none
  | .transferComplete => none
  | .traverseStart => none
  | .valveDelayExpiry _ => none
  | .valveCloseExpiry _ => none
  | .rowWindowEnd => none
  | .traverseEnd => none
  | .barReturnEnd => none
  | .flashSample _ => none
  | .flashWaitExpiry => none
  | .flashDwellExpiry => none
  | .printStart => none
  | .spitComplete => none
  | .shuttleEncoderCount _ _ => none
  | .scaleMark _ => none
  | .homeSensor => none
  | .noSignalExpiry => none
  | .scanStart => none
  | .scanPageRead _ => none
  | .tunnelSample _ _ _ => none
  | .beltEncoderCount => none
  | .beltStallExpiry => none
  | .diverterHoldEnd => none
  | .scannerCharacter _ _ => none

/-- The bytes of the host's stream that a command stands for: a request's frame, a rejected frame with its CRC as it
came, or the sync and the four bytes of an implausible header; none for any other command (R213, R214). -/
def streamBytes (c : Instr) : List Byte :=
  match c, bodyOf c with
  | .frameRejected kind tag body crc, _ => [0xA5, 0x3C] ++ coveredBytes kind tag body ++ be 2 crc.toNat
  | .implausibleHeader kind tag hi lo, _ => [0xA5, 0x3C, kind, tag, hi, lo]
  | _, some (kind, tag, body) => frameBytes { kind := kind, tag := tag, body := body }
  | _, none => []

/-- The bytes as the pipe holds them, with the level of KEY that came with the command (R52). -/
def chunkOf (c : Instr) : Chunk :=
  { bytes := streamBytes c
    key := match c with
      | .configSet _ key _ => some key
      | .profileSet _ key _ _ => some key
      | _ => none }

end Sys2Proof.Machine
end

