-- ==== Sys2Proof/Machine/Link.lean ====
section
/-!
DEFINITION. The operations of LNK: the transmitter (R218), notices (R219, R220), the packets sent (R212), the taking of a
request and its reply (R216, R217), and what every command ends with.
-/

namespace Sys2Proof.Machine

/-! ## The transmitter -/

/-- The next notice: the first reference of the list whose object is there, its frame, and the rest of the list
(R220). -/
def nextNotice (s : State) : List Ref → Option (Sending × List Ref)
  | [] => none
  | r :: rest =>
    match buildNotice r s with
    | some (f, final) => some ({ ref := r, final := final, frame := f }, rest)
    | none => nextNotice s rest

/-- The transmitter chooses what to send (R218): with the function configured and the transmitter IDLE, a reply in
the slot first, else the head of the notice list. -/
def transmit (s : State) : State :=
  if s.lnk.configured && s.lnk.tx == .idle then
    match s.lnk.reply with
    | some _ => s.withLnk fun l => { l with tx := .sendingReply }
    | none =>
      match nextNotice s s.lnk.notices with
      | some (k, rest) => s.withLnk fun l => { l with tx := .sendingNotice, sending := some k, notices := rest }
      | none => s.withLnk fun l => { l with notices := [] }
  else s

/-- What every command that acts on the line ends with: the waiting conditions, then the transmitter. -/
def settle (s : State) : State := transmit (advance s)

/-- A sending report frees a withdrawn order's slot, a removed image's slot, or a SORTED garment's record
(R20, R44, R87, R220). -/
def sendingReport (k : Sending) (s : State) : State :=
  if k.final then
    match k.ref with
    | .order slot => s.withOrd fun o => { o with orders := tabErase slot o.orders }
    | .image slot => s.withIms fun i => { i with images := tabErase slot i.images }
    | .garment n => s.withCar fun c => { c with garments := tabErase n c.garments }
    | _ => s
  else s

/-- The host has read the notice's last byte (R220). -/
def noticeRead (s : State) : State :=
  match s.lnk.tx, s.lnk.sending with
  | .sendingNotice, some k =>
    transmit ((sendingReport k s).withLnk fun l => { l with tx := .idle, sending := none })
  | _, _ => s

/-- A USB bus reset or a deconfiguration (R222). -/
def dropLink (s : State) : State :=
  let s := s.withLnk fun l => { l with
    configured := false, parser := .hunt, reply := none, tx := .idle, sending := none,
    notices := match l.sending with
      | some k => noteIn k.ref l.notices
      | none => l.notices }
  s

/-! ## The bulk-in pipe -/

/-- The frame being sent (R218). -/
def sendingFrame (s : State) : Option Frame :=
  match s.lnk.tx with
  | .idle => none
  | .sendingReply => s.lnk.reply
  | .sendingNotice => s.lnk.sending.map Sending.frame

/-- The packets that carry a frame's bytes: full ones, and a short one that ends the transfer, of no bytes where the
length is a whole number of packets (R212; the packet size is log entry 36). -/
def packetsOf (bytes : List Byte) : List (List Byte) :=
  (List.range (bytes.length / Config.bulkPacket + 1)).map fun k =>
    (bytes.drop (Config.bulkPacket * k)).take Config.bulkPacket

/-- The packets that the bulk-in pipe carries: those of the frame being sent (R212). -/
def bulkIn (s : State) : List (List Byte) :=
  match sendingFrame s with
  | some f => packetsOf (frameBytes f)
  | none => []

/-! ## Requests -/

/-- What an owner answers: the status, the content, and the state after the request. -/
structure Answer where
  status : Status
  content : List Byte
  state : State

/-- A refusal changes no state (R217). -/
def refuse (st : Status) (s : State) : Answer := { status := st, content := [], state := s }

/-- An acceptance: OK, or CLAMPED where a value was clamped (R55). -/
def accept (clamped : Bool) (s : State) : Answer :=
  { status := if clamped then .clamped else .ok, content := [], state := s }

/-- A query is answered OK with its content and changes nothing. -/
def answer (content : List Byte) (s : State) : Answer := { status := .ok, content := content, state := s }

/-- The part reads bytes only while it is configured and the reply slot is empty (R212). -/
def readsRequests (s : State) : Bool := s.lnk.configured && s.lnk.reply.isNone

/-- The body of a reply: the status, and the content after OK or CLAMPED alone (R217). -/
def replyBody (st : Status) (content : List Byte) : List Byte :=
  be 1 st.code ++ match st with
    | .ok | .clamped => content
    | _ => []

/-- The reply to a frame: its kind + 0x80 and its tag (R213). -/
def replyFrame (kind tag : Byte) (st : Status) (content : List Byte) : Frame :=
  { kind := kind + 0x80, tag := tag, body := replyBody st content }

/-- LNK places a reply in the slot, and the parser hunts for the next frame (R214, R216). -/
def placeReply (f : Frame) (s : State) : State := s.withLnk fun l => { l with parser := .hunt, reply := some f }

/-- LNK takes a request, or a frame that fails a link check (R215, R216): the owner decides it, the reply is placed, and
the transmitter chooses. -/
def take (kind tag : Byte) (decide : State → Answer) (s : State) : State :=
  let a := decide s
  transmit (placeReply (replyFrame kind tag a.status a.content) a.state)

end Sys2Proof.Machine
end

