-- ==== Sys2Proof/Machine/Belt.lean ====
section
/-!
DEFINITION. The meanings of the events of the cure tunnel and the exit (R144, R146, R158, R180).
-/

namespace Sys2Proof.Machine

/-- A tunnel sample, in the order of R146: supervision, duty, dose, speed, and the gate. The model's choice: the zones,
and with them their alarm references, go Z1, Z2, Z3 (log entry 11). -/
def sampleTunnel (z1 z2 z3 : Reading) (s : State) : State :=
  let t := superviseZone 2 z3 (superviseZone 1 z2 (superviseZone 0 z1 s))
  let t := driveZone s 2 (driveZone s 1 (driveZone s 0 t))
  testClaims (countSample (accrue t))

/-- The belt stall timer reaches 2 s (R158). -/
def stallBelt (s : State) : State := if s.ctc.stallFrom.isSome then haltOnset aBeltStall s else s

/-- The diverter hold reaches 2,000 counts: the diverter returns to MANUAL (R180). -/
def endHold (s : State) : State :=
  if s.exs.hold.isSome then s.withExs fun e => { e with hold := none, diverter := .manual } else s

/-- TUNNEL_SAMPLE (R146). -/
def execTunnelSample (z1 z2 z3 : Reading) (s : State) : Host.Outcome State Fault Refusal :=
  .next (settle (sampleTunnel z1 z2 z3 s))

/-- BELT_ENCODER_COUNT (R144). -/
def execBeltEncoderCount (s : State) : Host.Outcome State Fault Refusal := .next (settle (beltCount s))

/-- BELT_STALL_EXPIRY (R158). -/
def execBeltStallExpiry (s : State) : Host.Outcome State Fault Refusal := .next (settle (stallBelt s))

/-- DIVERTER_HOLD_END (R180). -/
def execDiverterHoldEnd (s : State) : Host.Outcome State Fault Refusal := .next (endHold s)

end Sys2Proof.Machine
end

