-- ==== Sys2Proof/Machine/Inputs.lean ====
section
/-!
DEFINITION. The meanings of the scanner lines, the operator and safety inputs, the index and the transfer arm
(R12, R68 to R77, R85, R204, R205, R209).
-/

namespace Sys2Proof.Machine

/-- LOAD_SCAN (R12): the CR that ends the record in the LOAD line's buffer (R209). -/
def execLoadScan (s : State) : Host.Outcome State Fault Refusal := .next (settle (takeChar .load cr s))

/-- ENTRY_RECORD (R183): the CR that ends the record in the ENTRY line's buffer (R209). -/
def execEntryRecord (s : State) : Host.Outcome State Fault Refusal := .next (settle (takeChar .entry cr s))

/-- EXIT_RECORD (R172): the CR that ends the record in the EXIT line's buffer (R209). -/
def execExitRecord (s : State) : Host.Outcome State Fault Refusal := .next (settle (takeChar .exit cr s))

/-- SCANNER_CHARACTER (R209). -/
def execScannerCharacter (line : ScanLine) (char : Byte) (s : State) : Host.Outcome State Fault Refusal :=
  .next (settle (takeChar line char s))

/-- SCANNER_OVERLONG (R209): the character that comes with the buffer at 32. -/
def execScannerOverlong (line : ScanLine) (char : Byte) (s : State) : Host.Outcome State Fault Refusal :=
  .next (settle (takeChar line char s))

/-- SCANNER_FRAMING_FAULT (R209). -/
def execScannerFramingFault (line : ScanLine) (s : State) : Host.Outcome State Fault Refusal :=
  .next (settle (framingFault line s))

/-- FOOTSWITCH_PRESS (R76). -/
def execFootswitchPress (s : State) : Host.Outcome State Fault Refusal := .next (settle (pressFoot s))

/-- SKIP_PRESS (R77). -/
def execSkipPress (s : State) : Host.Outcome State Fault Refusal := .next (settle (pressSkip s))

/-- ESTOP_CHANGE (R204). -/
def execEstopChange (active : Bool) (s : State) : Host.Outcome State Fault Refusal :=
  .next (settle (readEstop active s))

/-- GUARD_CHANGE (R205). -/
def execGuardChange (guard : Nat) (high : Bool) (s : State) : Host.Outcome State Fault Refusal :=
  .next (settle (readGuard guard high s))

/-- INDEX_START (R67). -/
def execIndexStart (s : State) : Host.Outcome State Fault Refusal := .next (transmit (updateLamp (tryIndex s)))

/-- INDEX_SENSOR (R68). -/
def execIndexSensor (s : State) : Host.Outcome State Fault Refusal := .next (settle (indexSensed s))

/-- INDEX_TIMEOUT (R70). -/
def execIndexTimeout (s : State) : Host.Outcome State Fault Refusal := .next (settle (indexExpired s))

/-- TRANSFER_COMPLETE (R85). -/
def execTransferComplete (s : State) : Host.Outcome State Fault Refusal :=
  .next (settle (placeReported s))

end Sys2Proof.Machine
end

