-- ==== Sys2Proof/Machine/Control.lean ====
section
/-!
DEFINITION. Power-on, identification, status, RESET, the link checks, and the transmitter's events.
-/

namespace Sys2Proof.Machine

/-! ## RESET (R225) -/

/-- What an accepted RESET request clears in CAR (R65, R67, R78, R79, R82, R85, R88). The model's choice: the index run
time is 0 s then (log entry 37). -/
def Car.cleared (c : Car) : Car :=
  let keep := fun (r : StationRec) => { r with hold := Hold.none }
  { c with
    load := keep c.load, pretreat := keep c.pretreat, flash := keep c.flash, print := keep c.print,
    unload := keep c.unload, index := .none, indexRun := 0, line := .idle, transfer := .none, refused := false,
    lamp := .off, lastScan := none, garments := [], lastSerial := 0 }

/-- What it clears in PTR (R99, R106); the heater is off, because the line is IDLE (R100). -/
def Ptr.cleared (p : Ptr) : Ptr :=
  { p with job := .none, schedule := none, row := 0, valves := closedValves, flashJob := .none, hotOver := false,
           waitFrom := none, dwellFrom := none, heater := false }

/-- What it clears in CTC (R170): the selected speed becomes s_max, and belt and heaters stop with the line. -/
def Ctc.cleared (sMax : Nat) (c : Ctc) : Ctc :=
  { c with
    zones := c.zones.map fun z => { z with duty := 0, tripBegin := 0, tripEnd := 0, lowBegin := 0, lowEnd := 0 },
    selected := sMax, stallFrom := none, gateHeld := false, unloadClaim := none, refeedClaim := none,
    entrant := none }

/-- What it clears in IMS (R49). -/
def Ims.cleared (i : Ims) : Ims := { i with images := [], scanQueue := [], scan := none, corrected := 0 }

/-- What it clears in LNK (R225): a sending report of a frame built before it is disregarded (R220). -/
def Lnk.cleared (l : Lnk) : Lnk :=
  { l with notices := [], sending := l.sending.map fun k => { k with final := false } }

/-- Every owner clears its production state (R225). -/
def clearAll (s : State) : State :=
  resetShuttle { s with
    lnk := s.lnk.cleared, ord := .powerOn, ims := s.ims.cleared, car := s.car.cleared, ptr := s.ptr.cleared,
    fdp := { s.fdp with spit := none, stroke := none, head := [] }, ctc := s.ctc.cleared s.prf.cure.sMax,
    exs := { Exs.powerOn with recure := s.exs.recure }, alm := .powerOn }

/-- The RESET request may be accepted (R225). -/
def resetAllowed (s : State) : Bool :=
  (s.car.line == .idle || s.car.line == .stopped) && s.ctc.tunnel.isEmpty && s.exs.recure.isEmpty

/-- LNK decides RESET (R225): the line is appended first if it was STOPPED, then ALM's onsets. -/
def decideReset (s : State) : Answer :=
  if resetAllowed s then
    let t := clearAll s
    accept false (firstReading (if s.car.line = .stopped then note .line t else t))
  else refuse .state s

/-! ## Meanings, and the requests taken -/

/-- POWER_ON (R211): every block takes its power-on state, and ALM takes its first reading of e-stop and the
guards. The commands that wait go on waiting (log entry 1). -/
def execPowerOn (estop : Bool) (guards : BitVec 4) (s : State) : Host.Outcome State Fault Refusal :=
  .next (firstReading { State.reset with
    pins := { estop := estop, guards := guards, key := s.pins.key }, pending := s.pending })

/-- IDENT (R223). -/
def takeIdent (tag : Byte) (s : State) : State := take 0x01 tag (answer identBytes) s

/-- STATUS_GET (R224). -/
def takeStatusGet (tag : Byte) (s : State) : State := take 0x02 tag (fun s => answer (statusBytes s) s) s

/-- RESET (R225). -/
def takeReset (tag : Byte) (s : State) : State := take 0x03 tag decideReset s

/-- A complete frame that fails a link check: the first that fails decides the reply (R215). -/
def takeRejected (f : Received) (s : State) : State :=
  match linkCheck f with
  | some st => take f.kind f.tag (refuse st) s
  | none => s

/-- NOTICE_SEND_START (R218, R220). -/
def execNoticeSendStart (s : State) : Host.Outcome State Fault Refusal := .next (transmit s)

/-- NOTICE_SENT (R220). -/
def execNoticeSent (s : State) : Host.Outcome State Fault Refusal := .next (noticeRead s)

/-- USB_BUS_RESET (R222). -/
def execUsbBusReset (s : State) : Host.Outcome State Fault Refusal := .next (dropLink s)

end Sys2Proof.Machine
end

