-- ==== Sys2Proof/Machine/Images.lean ====
section
/-!
DEFINITION. The image requests, decided and taken, and the meanings of the events of the coverage scan (R24 to R49).
-/

namespace Sys2Proof.Machine

/-! ## Opening and streaming -/

/-- The band-plane list of an open: one page for each entry, in list order, unsent (R31). -/
def allocate (need : Nat) (supply : List Nat) : List Plane := (supply.take need).map fun n => .page n false

/-- IMS decides IMAGE_OPEN, in the order of R29, with the clamp of R30 and the allocation of R31. -/
def decideOpen (id w h x0 y0 channels rush : Nat) (s : State) : Answer :=
  if (openImage s).isSome then refuse .state s
  else if (imageOf id s).isSome then refuse .exists_ s
  else if w < 16 ∨ Config.fieldDots < w ∨ h < 16 ∨ Config.fieldLines < h then refuse .range s
  else match channelSetOf channels, flagOf rush with
    | some set, some rush =>
      match freeKey Config.imageSlots s.ims.images with
      | none => refuse .full s
      | some slot =>
        let need := bandsOf h * (channelsIn set).length
        let supply := pageSupply rush s
        if supply.length < need then refuse .full s
        else
          let x := min x0 (Config.fieldDots - w)
          let y := min y0 (Config.fieldLines - h)
          let i : Image :=
            { id := id, w := w, h := h, x0 := x, y0 := y, channels := set, rush := rush, state := .open_,
              planes := allocate need supply, coverage := none, queuedRefs := 0, garmentRefs := 0,
              printActive := false, removed := false }
          accept (x != x0 || y != y0)
            (note (.image slot) (s.withIms fun m => { m with images := tabSet slot i m.images }))
    | _, _ => refuse .range s

/-- An accepted BAND writes the plane to the entry's page, and the entry becomes sent (R33). -/
def writePlane (slot k page : Nat) (bytes : List Byte) (s : State) : State :=
  setPlane slot k (.page page true)
    (s.withIms fun m => { m with store := storeWrite (page * Config.pageBytes) bytes m.store })

/-- IMS decides BAND, in the steps of R33. -/
def decideBand (ch b encoding : Nat) (data : List Byte) (s : State) : Answer :=
  match openImage s with
  | none => refuse .notOpen s
  | some (slot, i) =>
    match (if encoding < 2 then planeIndex i.channels i.h ch b else none) with
    | none => refuse .range s
    | some k =>
      match planeData encoding (planeSize i.w i.h b) data, i.planes[k]? with
      | some bytes, some (.page n _) => accept false (writePlane slot k n bytes s)
      | _, _ => refuse .badData s

/-! ## Ending the OPEN state -/

/-- An entry still unsent returns its page and becomes BLANK (R37). -/
def closePlane : Plane → Plane
  | .page _ false => .blank
  | p => p

/-- IMS decides IMAGE_CLOSE (R37): a scan that finds nothing to read completes at once. -/
def decideClose (s : State) : Answer :=
  match openImage s with
  | none => refuse .notOpen s
  | some (slot, _) =>
    let s := withImage slot (fun i => { i with state := .closing, planes := i.planes.map closePlane }) s
    let s := s.withIms fun m => { m with scanQueue := m.scanQueue ++ [slot] }
    accept false (advanceScan (note (.image slot) s))

/-- IMS decides IMAGE_ABORT (R36). -/
def decideAbort (s : State) : Answer :=
  match openImage s with
  | none => refuse .notOpen s
  | some (slot, _) => accept false (removeImage slot s)

/-! ## Deletion -/

/-- A garment that holds a reference to a deleted image receives IMAGE_GONE and drops the reference (R43). -/
def Garment.lostImage (id : Nat) (g : Garment) : Garment :=
  if holdsImage id g then { g with image := none, defects := addTo .imageGone g.defects } else g

/-- Every garment record that holds a reference to a deleted image receives IMAGE_GONE (R43). -/
def markImageGone (slot id : Nat) (s : State) : State :=
  let n := s.car.garments.countP fun p => holdsImage id p.2
  let s := s.withCar fun c => { c with garments := c.garments.map fun p => (p.1, p.2.lostImage id) }
  withImage slot (fun i => { i with garmentRefs := i.garmentRefs - n }) s

/-- A garment whose print on the image has begun stands at PRINT (R43). -/
def printBegun (id : Nat) (s : State) : Bool :=
  s.shf.begun && match (garmentAt .print s).bind fun n => garment n s with
    | some g => g.image == some id
    | none => false

/-- IMS decides IMAGE_DELETE, by the image's state (R42, R43). The scan goes on with the next image. The model's choice: the
deleted image is appended before what a scan that then completes appends (log entry 11). -/
def decideDelete (id : Nat) (s : State) : Answer :=
  match imageOf id s with
  | none => refuse .notFound s
  | some (slot, i) =>
    match i.state with
    | .open_ => refuse .state s
    | .closing => accept false (advanceScan (removeImage slot (imageDeletedReport id (dropScan slot s))))
    | .ready =>
      if 0 < i.queuedRefs ∨ 0 < i.garmentRefs then refuse .inUse s
      else accept false (removeImage slot (imageDeletedReport id s))
    | .damaged =>
      if i.printActive || printBegun id s then refuse .busy s
      else accept false (removeImage slot (markImageGone slot id (imageDeletedReport id s)))

/-- IMS answers IMAGE_GET (R48, R231). -/
def decideImageGet (id : Nat) (s : State) : Answer :=
  match imageOf id s with
  | some (_, i) => answer (imageBytes i ++ gridBytes i) s
  | none => refuse .notFound s

/-! ## Taking the requests -/

/-- IMAGE_OPEN (R29). -/
def takeImageOpen (tag : Byte) (id w h x0 y0 channels rush : Nat) (s : State) : State :=
  take 0x20 tag (decideOpen id w h x0 y0 channels rush) s

/-- BAND (R33). -/
def takeBand (tag : Byte) (channel index encoding : Nat) (data : List Byte) (s : State) : State :=
  take 0x21 tag (decideBand channel index encoding data) s

/-- IMAGE_CLOSE (R37). -/
def takeImageClose (tag : Byte) (s : State) : State := take 0x22 tag decideClose s

/-- IMAGE_ABORT (R36). -/
def takeImageAbort (tag : Byte) (s : State) : State := take 0x23 tag decideAbort s

/-- IMAGE_DELETE (R42). -/
def takeImageDelete (tag : Byte) (id : Nat) (s : State) : State := take 0x24 tag (decideDelete id) s

/-- IMAGE_GET (R48). -/
def takeImageGet (tag : Byte) (id : Nat) (s : State) : State := take 0x25 tag (decideImageGet id) s

/-! ## Meanings -/

/-- SCAN_START (R38): the scan begins on the image at the front of the queue, where none runs. -/
def execScanStart (s : State) : Host.Outcome State Fault Refusal := .next (transmit (advanceScan s))

/-- SCAN_PAGE_READ (R38): one page read of the running scan ends. -/
def execScanPageRead (result : ReadResult) (s : State) : Host.Outcome State Fault Refusal :=
  .next (transmit (scanRead result s))

end Sys2Proof.Machine
end

