-- ==== Sys2Proof/Machine/Orders.lean ====
section
/-!
DEFINITION. The requests of ORD and EXS, and GARMENT_GET, decided and taken (R1 to R23, R88, R186, R190).
-/

namespace Sys2Proof.Machine

/-! ## ORDER_ADD -/

/-- An item body in its ranges (R4 check 2). -/
def itemOk (i : ItemBody) : Bool :=
  decide (1 ≤ i.quantity ∧ i.quantity ≤ 16 ∧ i.sku ≤ 999999999999 ∧ i.profile ≤ 15)

/-- An item body as an item record (R5). -/
def itemFrom (i : ItemBody) : Item :=
  { sku := i.sku, image := i.image, profile := i.profile, quantity := i.quantity, reprints := 0 }

/-- The class that an order's units take at entry (R5). -/
def classOf : Priority → UnitClass
  | .normal => .normal
  | .rush => .rush

/-- An order record at entry (R5): its counts follow as its units are created. -/
def newOrder (id : Nat) (p : Priority) (items : List Item) : Order :=
  { id := id, priority := p, state := .open_, items := items, bin := none, split := false,
    counts := { waitImage := 0, queued := 0, inLine := 0, done := 0, failed := 0 }, withdrawn := false }

/-- An accepted order is entered with its units (R5). -/
def enterOrder (slot id : Nat) (p : Priority) (items : List Item) (s : State) : State :=
  let s := s.withOrd fun o => { o with orders := tabSet slot (newOrder id p items) o.orders }
  note (.order slot) (addUnits slot (classOf p) items s)

/-- ORD decides ORDER_ADD, in the order of R4. -/
def decideAdd (id priority : Nat) (items : List ItemBody) (s : State) : Answer :=
  if (orderOf id s).isSome then refuse .exists_ s
  else match priorityOf priority with
    | none => refuse .range s
    | some p =>
      let total := (items.map ItemBody.quantity).sum
      if id = 0 ∨ items = [] ∨ 8 < items.length ∨ 16 < total ∨ items.all itemOk = false then refuse .range s
      else match freeKey Config.orderSlots s.ord.orders with
        | none => refuse .full s
        | some slot =>
          if Config.unitRecords - s.ord.units.length < total then refuse .full s
          else accept false (enterOrder slot id p (items.map itemFrom) s)

/-! ## ORDER_RUSH and ORDER_CANCEL -/

/-- Every NORMAL unit of an order takes class RUSH (R11). -/
def rushUnits (slot : Nat) (s : State) : State :=
  (unitsOf slot s).foldl (fun t seq =>
    match tabGet seq t.ord.units with
    | some u => if u.cls = .normal then classUnit seq .rush t else t
    | none => t) s

/-- ORD decides ORDER_RUSH (R11). -/
def decideRush (id : Nat) (s : State) : Answer :=
  match orderOf id s with
  | none => refuse .notFound s
  | some (slot, o) =>
    if o.state = .cancelling ∨ o.state = .complete then refuse .state s
    else accept false (note (.order slot) (rushUnits slot (withOrder slot (fun o => { o with priority := .rush }) s)))

/-- Every QUEUED and WAIT_IMAGE unit of an order is removed (R21). -/
def removeWaiting (slot : Nat) (s : State) : State :=
  (unitsOf slot s).foldl (fun t seq =>
    match tabGet seq t.ord.units with
    | some u => if u.state = .queued ∨ u.state = .waitImage then dropUnit seq t else t
    | none => t) s

/-- ORD decides ORDER_CANCEL (R21). -/
def decideCancel (id : Nat) (s : State) : Answer :=
  match orderOf id s with
  | none => refuse .notFound s
  | some (slot, o) =>
    if o.state = .cancelling then refuse .state s
    else
      let s := removeWaiting slot s
      if o.counts.inLine = 0 then accept false (retireCancelled slot s)
      else accept false (note (.order slot) (withOrder slot (fun o => { o with state := .cancelling }) s))

/-! ## The other requests -/

/-- ORD answers ORDER_GET (R23). -/
def decideOrderGet (id : Nat) (s : State) : Answer :=
  match orderOf id s with
  | some (_, o) => answer (orderBytes o) s
  | none => refuse .notFound s

/-- CAR answers GARMENT_GET (R88). -/
def decideGarmentGet (serial : Nat) (s : State) : Answer :=
  match garment serial s with
  | some g => answer (garmentBytes serial g) s
  | none => refuse .notFound s

/-- EXS decides RECURE_DROP (R186). -/
def decideRecureDrop (serial : Nat) (s : State) : Answer :=
  if s.exs.recure.contains serial then accept false (dropRecure serial s) else refuse .notFound s

/-- EXS decides BIN_CLEAR (R190). -/
def decideBinClear (n force : Nat) (s : State) : Answer :=
  if n = 0 ∨ Config.binCount < n then refuse .range s
  else match flagOf force with
    | none => refuse .range s
    | some force =>
      match (binAt n s).state with
      | .free => accept false s
      | .filling => if force then accept false (clearBin n s) else refuse .state s
      | .complete => accept false (clearBin n s)

/-! ## Taking the requests -/

/-- ORDER_ADD (R4). -/
def takeOrderAdd (tag : Byte) (id priority : Nat) (items : List ItemBody) (s : State) : State :=
  take 0x30 tag (decideAdd id priority items) s

/-- ORDER_RUSH (R11). -/
def takeOrderRush (tag : Byte) (id : Nat) (s : State) : State := take 0x31 tag (decideRush id) s

/-- ORDER_CANCEL (R21). -/
def takeOrderCancel (tag : Byte) (id : Nat) (s : State) : State := take 0x32 tag (decideCancel id) s

/-- ORDER_GET (R23). -/
def takeOrderGet (tag : Byte) (id : Nat) (s : State) : State := take 0x33 tag (decideOrderGet id) s

/-- GARMENT_GET (R88). -/
def takeGarmentGet (tag : Byte) (serial : Nat) (s : State) : State := take 0x38 tag (decideGarmentGet serial) s

/-- RECURE_DROP (R186). -/
def takeRecureDrop (tag : Byte) (serial : Nat) (s : State) : State := take 0x39 tag (decideRecureDrop serial) s

/-- BIN_CLEAR (R190). -/
def takeBinClear (tag : Byte) (bin force : Nat) (s : State) : State := take 0x3A tag (decideBinClear bin force) s

end Sys2Proof.Machine
end

