-- ==== Sys2Proof/Machine/Requests.lean ====
section
/-!
DEFINITION. The requests of PTR, CAR and ALM, decided and taken (R71 to R73, R95, R199, R203, R207).
-/

namespace Sys2Proof.Machine

/-- FLUID_FILLED (R95): the estimate becomes the capacity, the condition ends if it is present, and the test is made. -/
def decideFilled (s : State) : Answer :=
  let s := s.withPtr fun p => { p with tank := micrograms s.prf.line.tankCap }
  accept false (advance (retestFluid (reportCondition aFluidLow false s)))

/-- CAR decides LINE_START (R71). -/
def decideStart (s : State) : Answer :=
  if !startAllowed s then refuse .state s
  else if s.car.line = .running then accept false s
  else accept false (advance (enterRunning s))

/-- CAR decides LINE_STOP (R72). -/
def decideStop (s : State) : Answer :=
  match s.car.line with
  | .running => accept false (advance (enterDraining s))
  | .halted => if startAllowed s then accept false (advance (enterDraining s)) else refuse .state s
  | _ => accept false s

/-- CAR decides LINE_HALT (R73). -/
def decideHalt (s : State) : Answer := accept false (advance (enterHalted s))

/-- ALM answers ALARM_GET (R203). -/
def decideAlarmGet (kind number : Nat) (s : State) : Answer :=
  match alarmIndex kind number with
  | some i => answer (alarmBytes i s ++ flag (masked i s)) s
  | none => refuse .range s

/-- ALM decides ALARM_ACK (R199). -/
def decideAck (kind number count : Nat) (s : State) : Answer :=
  match alarmIndex kind number with
  | none => refuse .range s
  | some i =>
    if (alarm i s).count ≠ count then refuse .stale s else accept false (advance (acknowledgeAt i s))

/-- ALM decides DRILL_STEP (R207). -/
def decideDrill (s : State) : Answer :=
  if s.car.line = .idle ∨ s.car.line = .stopped then accept false (stepDrill s) else refuse .state s

/-! ## Taking the requests -/

/-- FLUID_FILLED (R95). -/
def takeFluidFilled (tag : Byte) (s : State) : State := take 0x40 tag decideFilled s

/-- LINE_START (R71). -/
def takeLineStart (tag : Byte) (s : State) : State := take 0x48 tag decideStart s

/-- LINE_STOP (R72). -/
def takeLineStop (tag : Byte) (s : State) : State := take 0x49 tag decideStop s

/-- LINE_HALT (R73). -/
def takeLineHalt (tag : Byte) (s : State) : State := take 0x4A tag decideHalt s

/-- ALARM_GET (R203). -/
def takeAlarmGet (tag : Byte) (kind number : Nat) (s : State) : State := take 0x50 tag (decideAlarmGet kind number) s

/-- ALARM_ACK (R199). -/
def takeAlarmAck (tag : Byte) (kind number count : Nat) (s : State) : State :=
  take 0x51 tag (decideAck kind number count) s

/-- DRILL_STEP (R207). -/
def takeDrillStep (tag : Byte) (s : State) : State := take 0x52 tag decideDrill s

end Sys2Proof.Machine
end

