-- ==== Sys2Proof/Machine/Settings.lean ====
section
/-!
DEFINITION. The settings requests and the nozzle requests, decided and taken (R50 to R63, R126, R127).
-/

namespace Sys2Proof.Machine

/-! ## CONFIG_SET -/

/-- The exempt set with the mask of channel `c` replaced; bits 24 to 31 are not read (R230). -/
def setExempt (exempt : BitVec 120) (c value : Nat) : BitVec 120 :=
  (exempt &&& ~~~ (0xFFFFFF#120 <<< (24 * c))) ||| (BitVec.ofNat 120 (value % 2 ^ 24) <<< (24 * c))

/-- The range of a numeric line setting and how it is stored (R56, R230). -/
def numericSetting (code : Nat) : Option (Nat × Nat × (Nat → LineSettings → LineSettings)) :=
  match code with
  | 0x01 => some (0, 255, fun v l => { l with lineId := v })
  | 0x02 => some (0, 7, fun v l => { l with reprintLimit := v })
  | 0x03 => some (0, 3, fun v l => { l with recureLimit := v })
  | 0x06 => some (0, 8, fun v l => { l with markTol := v })
  | 0x08 => some (100, 1500, fun v l => { l with shuttleSpeed := v })
  | 0x09 => some (16, 255, fun v l => { l with tickle := v })
  | 0x0B => some (100, 400, fun v l => { l with barSpeed := v })
  | 0x0C => some (0, 15, fun v l => { l with laneMult := v })
  | 0x0E => some (1, 1000, fun v l => { l with flow := v })
  | 0x0F => some (100, 20000, fun v l => { l with tankCap := v })
  | 0x10 => some (0, 20000, fun v l => { l with tankReserve := v })
  | 0x11 => some (5, 120, fun v l => { l with flashWait := v })
  | 0x12 => some (0, 24, fun v l => { l with bins := v })
  | _ => none

/-- A setting whose value is an enumeration, a flag or a mask; `none` for an unknown setting or a value outside its
enumeration (R56, R230). The ESTOP kind keeps its fixed sense. -/
def enumSetting (e : SettingEntry) (l : LineSettings) : Option LineSettings :=
  match e.code with
  | 0x04 => if e.index = 0 then (reserveOf e.value).map fun v => { l with reserve := v } else none
  | 0x05 => if e.index = 0 then (lossRuleOf e.value).map fun v => { l with lossRule := v } else none
  | 0x07 => if e.index = 0 then (flagOf e.value).map fun v => { l with autoResync := v } else none
  | 0x0A => if e.index < 5 then some { l with exempt := setExempt l.exempt e.index e.value } else none
  | 0x13 => if e.index = 0 ∧ e.value < 16 then some { l with guardMask := BitVec.ofNat 4 e.value } else none
  | 0x14 =>
    if 1 ≤ e.index ∧ e.index ≤ 14 ∧ (e.index = 1 → e.value ≠ 0) then
      (senseOf e.value).map fun v => { l with senses := l.senses.set (e.index - 1) v }
    else none
  | 0x15 =>
    if e.index < 22 then (flagOf e.value).map fun v => { l with masks := l.masks.set e.index v } else none
  | 0x16 => if e.index = 0 then (flagOf e.value).map fun v => { l with lock := v } else none
  | _ => none

/-- One entry stored (R55, R57 checks 1 and 2): the settings after it, and whether its value was clamped. -/
def applySetting (e : SettingEntry) (l : LineSettings) : Option (LineSettings × Bool) :=
  if e.code = 0x0D then
    if e.index < 8 then
      some ({ l with laneDelays := l.laneDelays.set e.index (clamp 0 255 e.value) }, clamp 0 255 e.value != e.value)
    else none
  else match numericSetting e.code with
    | some (lo, hi, store) =>
      if e.index = 0 then some (store (clamp lo hi e.value) l, clamp lo hi e.value != e.value) else none
    | none => (enumSetting e l).map fun l => (l, false)

/-- The entries stored in order; `none` at a structural fault. -/
def applySettings : List SettingEntry → LineSettings → Option (LineSettings × Bool)
  | [], l => some (l, false)
  | e :: es, l =>
    match applySetting e l with
    | some (l, c) => (applySettings es l).map fun p => (p.1, c || p.2)
    | none => none

/-- No setting, the pair of code and index, is named twice (R230). -/
def namedOnce : List SettingEntry → Bool
  | [] => true
  | e :: es => es.all (fun d => d.code != e.code || d.index != e.index) && namedOnce es

/-- What an accepted CONFIG_SET does at once to the blocks whose state it acts on (R59, R95, R206). The model's choice:
where both a tank setting and the guard mask change, the fluid is tested again before GUARD is judged (log entry 11). -/
def storeSettings (l : LineSettings) (s : State) : State :=
  let old := s.prf.line
  let s := s.withPrf fun p => { p with line := l }
  let s := s.withPtr fun p => { p with tank := min p.tank (micrograms l.tankCap) }
  let s := if old.tankCap = l.tankCap ∧ old.tankReserve = l.tankReserve then s else advance (retestFluid s)
  if old.guardMask = l.guardMask then s else advance (judgeGuards s)

/-- The line id may change (R57 check 5). -/
def lineIdFree (s : State) : Bool :=
  (s.car.line == .idle || s.car.line == .stopped) && s.ctc.tunnel.isEmpty && s.exs.recure.isEmpty

/-- PRF decides CONFIG_SET, in the order of R57. -/
def decideConfig (key : Bool) (es : List SettingEntry) (s : State) : Answer :=
  let s := s.withPins fun p => { p with key := key }
  if es = [] ∨ 64 < es.length ∨ namedOnce es = false then refuse .range s
  else match applySettings es s.prf.line with
    | none => refuse .range s
    | some (l, clamped) =>
      if l.tankCap < l.tankReserve then refuse .range s
      else if s.prf.line.lock && !l.lock && !key then refuse .locked s
      else if s.prf.line.lineId != l.lineId && !lineIdFree s then refuse .state s
      else if s.prf.line.reserve != l.reserve && !reserveFits l.reserve s then refuse .state s
      else accept clamped (storeSettings l s)

/-! ## Profiles -/

/-- The numeric fields of a profile clamped to their ranges (R50, R51 step 3). -/
def clampProfile (b : ProfileBody) : ProfileBody :=
  { b with
    pFloor := clamp 0 1000 b.pFloor, tBase := clamp 0 4000 b.tBase, tGain := clamp 0 4000 b.tGain,
    tMin := clamp 0 4000 b.tMin, tMax := clamp 0 4000 b.tMax, dwell := clamp 0 60 b.dwell,
    tfMin := clamp 1000 2500 b.tfMin, tfMax := clamp 1000 2500 b.tfMax, lineLimit := clamp 0 6240 b.lineLimit,
    dotLimit := clamp 0 16777215 b.dotLimit, markX := clamp 0 4752 b.markX, markY := clamp 0 6208 b.markY,
    tTh := clamp 0 2500 b.tTh, dBase := clamp 0 2000000 b.dBase, kInk := clamp 0 255 b.kInk,
    dMax := clamp 1 4000000 b.dMax }

/-- A clamped body as a profile. -/
def profileFrom (b : ProfileBody) (basis : Basis) (markOn : Bool) : Profile :=
  { basis := basis, pFloor := b.pFloor, tBase := b.tBase, tGain := b.tGain, tMin := b.tMin, tMax := b.tMax,
    dwell := b.dwell, tfMin := b.tfMin, tfMax := b.tfMax, lineLimit := b.lineLimit, dotLimit := b.dotLimit,
    markOn := markOn, markX := b.markX, markY := b.markY, tTh := b.tTh, dBase := b.dBase, kInk := b.kInk,
    dMax := b.dMax }

/-- PRF decides PROFILE_SET, in the order of R51. -/
def decideProfile (key : Bool) (id : Nat) (b : ProfileBody) (s : State) : Answer :=
  let s := s.withPins fun p => { p with key := key }
  if s.prf.line.lock && !key then refuse .locked s
  else if Config.profileCount ≤ id then refuse .range s
  else match basisOf b.basis, flagOf b.markOn with
    | some basis, some markOn =>
      let c := clampProfile b
      if c.tMax < c.tMin ∨ c.tfMax < c.tfMin then refuse .range s
      else accept (c != b) (s.withPrf fun p => { p with profiles := p.profiles.set id (profileFrom c basis markOn) })
    | _, _ => refuse .range s

/-- PRF answers PROFILE_GET (R54). -/
def decideProfileGet (id : Nat) (s : State) : Answer :=
  match s.prf.profiles[id]? with
  | some p => answer (profileBytes p) s
  | none => refuse .range s

/-! ## Cure and spit settings -/

/-- The cure settings clamped to their ranges (R60). -/
def clampCure (b : CureBody) : CureBody :=
  { tSet1 := clamp 1000 2500 b.tSet1, tSet2 := clamp 1000 2500 b.tSet2, tSet3 := clamp 1000 2500 b.tSet3,
    tTrip := clamp 1000 3000 b.tTrip, band := clamp 10 500 b.band, samples := clamp 1 255 b.samples,
    gain := clamp 1 255 b.gain, dMin := clamp 0 1000 b.dMin, dMax := clamp 0 1000 b.dMax,
    sMin := clamp 50 1000 b.sMin, sMax := clamp 50 1000 b.sMax }

/-- A clamped body as the cure settings. -/
def cureFrom (b : CureBody) : CureSettings :=
  { tSet := [b.tSet1, b.tSet2, b.tSet3], tTrip := b.tTrip, band := b.band, samples := b.samples, gain := b.gain,
    dMin := b.dMin, dMax := b.dMax, sMin := b.sMin, sMax := b.sMax }

/-- PRF decides CURE_SET (R60); CTC recomputes the speed at once (R61). -/
def decideCure (b : CureBody) (s : State) : Answer :=
  let c := clampCure b
  if c.dMax < c.dMin ∨ c.sMax < c.sMin ∨ c.tTrip ≤ c.tSet1 ∨ c.tTrip ≤ c.tSet2 ∨ c.tTrip ≤ c.tSet3 then
    refuse .range s
  else accept (c != b) (recomputeSpeed (s.withPrf fun p => { p with cure := cureFrom c }))

/-- PRF decides SPIT_SET (R62): a changed period sets the spit counter to 0. -/
def decideSpit (b : SpitBody) (s : State) : Answer :=
  let period := clamp 1 16 b.period
  let counts := b.counts.map (clamp 0 255)
  let p : SpitSettings := { period := period, masks := b.masks.map (BitVec.ofNat 16), counts := counts }
  let t := if period = s.prf.spit.period then s else s.withFdp fun f => { f with spitCounter := 0 }
  accept (period != b.period || counts != b.counts) (t.withPrf fun q => { q with spit := p })

/-! ## Nozzles -/

/-- An entry of NOZZLE_SET applied; `none` when it fails check 1 of R126. The flag says that its count was
clamped. -/
def applyNozzle (e : NozzleEntry) (map : List (Nat × NozzleFault)) : Option (List (Nat × NozzleFault) × Bool) :=
  match nozzleStateOf e.state with
  | some st =>
    if channelOk e.channel && rowOk e.row && decide (e.first < rowNozzles) && e.count != 0 then
      let n := min e.count (rowNozzles - e.first)
      some (setNozzles (nozzleNumber e.channel e.row e.first) n st map, n != e.count)
    else none
  | none => none

/-- The entries of NOZZLE_SET applied in list order (R126). -/
def applyNozzles : List NozzleEntry → List (Nat × NozzleFault) → Option (List (Nat × NozzleFault) × Bool)
  | [], map => some (map, false)
  | e :: es, map =>
    match applyNozzle e map with
    | some (map, c) => (applyNozzles es map).map fun p => (p.1, c || p.2)
    | none => none

/-- FDP decides NOZZLE_SET (R126). -/
def decideNozzleSet (es : List NozzleEntry) (s : State) : Answer :=
  if es = [] ∨ 512 < es.length then refuse .range s
  else match applyNozzles es s.fdp.nozzles with
    | some (map, clamped) => accept clamped (s.withFdp fun f => { f with nozzles := map })
    | none => refuse .range s

/-- The content of the NOZZLE_GET reply (R127): 4,800 states, then the counts of OK, WEAK and DEAD. -/
def nozzleBytes (c r : Nat) (s : State) : List Byte :=
  let states := (List.range rowNozzles).map fun x => nozzleState s.fdp.nozzles (nozzleNumber c r x)
  states.flatMap (fun st => code (nozzleCode st)) ++ be 2 (states.countP (· == none)) ++
  be 2 (states.countP (· == some .weak)) ++ be 2 (states.countP (· == some .dead))

/-- FDP answers NOZZLE_GET (R127). -/
def decideNozzleGet (c r : Nat) (s : State) : Answer :=
  if channelOk c && rowOk r then answer (nozzleBytes c r s) s else refuse .range s

/-! ## Taking the requests -/

/-- CONFIG_SET (R57). -/
def takeConfigSet (tag : Byte) (key : Bool) (entries : List SettingEntry) (s : State) : State :=
  take 0x10 tag (decideConfig key entries) s

/-- CONFIG_GET (R63). -/
def takeConfigGet (tag : Byte) (s : State) : State := take 0x11 tag (fun s => answer (configBytes s.prf) s) s

/-- PROFILE_SET (R51). -/
def takeProfileSet (tag : Byte) (key : Bool) (id : Nat) (body : ProfileBody) (s : State) : State :=
  take 0x12 tag (decideProfile key id body) s

/-- PROFILE_GET (R54). -/
def takeProfileGet (tag : Byte) (id : Nat) (s : State) : State := take 0x13 tag (decideProfileGet id) s

/-- CURE_SET (R60). -/
def takeCureSet (tag : Byte) (body : CureBody) (s : State) : State := take 0x14 tag (decideCure body) s

/-- SPIT_SET (R62). -/
def takeSpitSet (tag : Byte) (body : SpitBody) (s : State) : State := take 0x15 tag (decideSpit body) s

/-- NOZZLE_SET (R126). -/
def takeNozzleSet (tag : Byte) (entries : List NozzleEntry) (s : State) : State :=
  take 0x16 tag (decideNozzleSet entries) s

/-- NOZZLE_GET (R127). -/
def takeNozzleGet (tag : Byte) (channel row : Nat) (s : State) : State :=
  take 0x17 tag (decideNozzleGet channel row) s

end Sys2Proof.Machine
end

