-- ==== Sys2Proof/Machine/Receive.lean ====
section
/-!
DEFINITION. The bulk-out pipe: how the part reads the host's bytes and takes the requests they spell (R212, R214, R216),
and the meanings of the commands that bring bytes or let reading go on.
-/

namespace Sys2Proof.Machine

/-! ## Reading the pipe -/

/-- A frame's command taken: a request by its owner, a rejected frame by its link check (R215, R216). The other commands
bring no frame. -/
def serve (c : Instr) (s : State) : State :=
  match c with
  | .ident tag => takeIdent tag s
  | .statusGet tag => takeStatusGet tag s
  | .reset tag => takeReset tag s
  | .configSet tag key entries => takeConfigSet tag key entries s
  | .configGet tag => takeConfigGet tag s
  | .profileSet tag key id body => takeProfileSet tag key id body s
  | .profileGet tag id => takeProfileGet tag id s
  | .cureSet tag body => takeCureSet tag body s
  | .spitSet tag body => takeSpitSet tag body s
  | .nozzleSet tag entries => takeNozzleSet tag entries s
  | .nozzleGet tag channel row => takeNozzleGet tag channel row s
  | .imageOpen tag id w h x0 y0 channels rush => takeImageOpen tag id w h x0 y0 channels rush s
  | .band tag channel index encoding data => takeBand tag channel index encoding data s
  | .imageClose tag => takeImageClose tag s
  | .imageAbort tag => takeImageAbort tag s
  | .imageDelete tag id => takeImageDelete tag id s
  | .imageGet tag id => takeImageGet tag id s
  | .orderAdd tag id priority items => takeOrderAdd tag id priority items s
  | .orderRush tag id => takeOrderRush tag id s
  | .orderCancel tag id => takeOrderCancel tag id s
  | .orderGet tag id => takeOrderGet tag id s
  | .garmentGet tag serial => takeGarmentGet tag serial s
  | .recureDrop tag serial => takeRecureDrop tag serial s
  | .binClear tag bin force => takeBinClear tag bin force s
  | .fluidFilled tag => takeFluidFilled tag s
  | .lineStart tag => takeLineStart tag s
  | .lineStop tag => takeLineStop tag s
  | .lineHalt tag => takeLineHalt tag s
  | .alarmGet tag kind number => takeAlarmGet tag kind number s
  | .alarmAck tag kind number count => takeAlarmAck tag kind number count s
  | .drillStep tag => takeDrillStep tag s
  | .frameRejected kind tag body crc => takeRejected { kind := kind, tag := tag, body := body, crc := crc } s
  | .powerOn _ _ | .implausibleHeader _ _ _ _ | .replyRead | .noticeSendStart | .noticeSent | .usbBusReset
  | .usbConfigured | .loadScan | .entryRecord | .exitRecord | .scannerFramingFault _ | .scannerOverlong _ _
  | .footswitchPress | .skipPress | .estopChange _ | .guardChange _ _ | .indexStart | .indexSensor | .indexTimeout
  | .transferComplete | .traverseStart | .valveDelayExpiry _ | .valveCloseExpiry _ | .rowWindowEnd | .traverseEnd
  | .barReturnEnd | .flashSample _ | .flashWaitExpiry | .flashDwellExpiry | .printStart | .spitComplete
  | .shuttleEncoderCount _ _ | .scaleMark _ | .homeSensor | .noSignalExpiry | .scanStart | .scanPageRead _
  | .tunnelSample _ _ _ | .beltEncoderCount | .beltStallExpiry | .diverterHoldEnd | .scannerCharacter _ _ => s

/-- One byte read: the parser moves, and a frame that is complete is decided at once (R214, R215). `key` is the level of
KEY that came with the bytes; without one it is the level last read (log entry 10). -/
def readByte (key : Option Bool) (b : Byte) (s : State) : State :=
  let r := feed s.lnk.parser b
  let s := s.withLnk fun l => { l with parser := r.1 }
  match r.2.bind (commandOf (key.getD s.pins.key)) with
  | some c => serve c s
  | none => s

/-- Bytes read one after another while the part reads (R212): those it leaves, and the state. -/
def readBytes (key : Option Bool) : List Byte → State → List Byte × State
  | [], s => ([], s)
  | b :: bs, s => if readsRequests s then readBytes key bs (readByte key b s) else (b :: bs, s)

/-- The bytes of a list read in their order; what the part leaves stays in the pipe, and no byte is lost (R212). -/
def readChunks : List Chunk → State → State
  | [], s => s
  | c :: rest, s =>
    if readsRequests s then
      match readBytes c.key c.bytes s with
      | ([], t) => readChunks rest t
      | (b :: bs, t) => t.withLnk fun l => { l with pipe := { c with bytes := b :: bs } :: rest }
    else s.withLnk fun l => { l with pipe := c :: rest }

/-- The part reads what the pipe holds, for as long as it reads (R212). -/
def readPipe (s : State) : State := readChunks s.lnk.pipe (s.withLnk fun l => { l with pipe := [] })

/-- Bytes come behind those that the pipe holds, and the part reads (R212). -/
def arrive (c : Chunk) (s : State) : State := readPipe (s.withLnk fun l => { l with pipe := l.pipe ++ [c] })

/-- The part stands between two frames: it reads, no byte waits, and the parser seeks a sync (R212, R214). -/
def betweenFrames (s : State) : Bool :=
  readsRequests s && s.lnk.pipe.isEmpty && (s.lnk.parser == .hunt || s.lnk.parser == .sync)

/-- A request's frame comes. Between two frames it is read in full and taken at this event; anywhere else its bytes join
the stream (R212, R214, R216; log entry 14). -/
def deliver (c : Instr) (s : State) : State := if betweenFrames s then serve c s else arrive (chunkOf c) s

/-- The host has read the reply's last byte (R218): the slot is empty, the transmitter chooses, and the part reads on
(R212; log entry 6). -/
def replyRead (s : State) : State :=
  if s.lnk.tx = .sendingReply then readPipe (transmit (s.withLnk fun l => { l with reply := none, tx := .idle })) else s

/-- The host configures the function: sending and reading go on (R212, R222; log entry 6). -/
def configure (s : State) : State := readPipe (transmit (s.withLnk fun l => { l with configured := true }))

/-! ## Meanings -/

/-- IDENT (R223). -/
def execIdent (tag : Byte) (s : State) : Host.Outcome State Fault Refusal :=
  .next (deliver (.ident tag) s)

/-- STATUS_GET (R224). -/
def execStatusGet (tag : Byte) (s : State) : Host.Outcome State Fault Refusal :=
  .next (deliver (.statusGet tag) s)

/-- RESET (R225). -/
def execReset (tag : Byte) (s : State) : Host.Outcome State Fault Refusal :=
  .next (deliver (.reset tag) s)

/-- CONFIG_SET (R57). -/
def execConfigSet (tag : Byte) (key : Bool) (entries : List SettingEntry) (s : State) :
    Host.Outcome State Fault Refusal :=
  .next (deliver (.configSet tag key entries) s)

/-- CONFIG_GET (R63). -/
def execConfigGet (tag : Byte) (s : State) : Host.Outcome State Fault Refusal :=
  .next (deliver (.configGet tag) s)

/-- PROFILE_SET (R51). -/
def execProfileSet (tag : Byte) (key : Bool) (id : Nat) (body : ProfileBody) (s : State) :
    Host.Outcome State Fault Refusal :=
  .next (deliver (.profileSet tag key id body) s)

/-- PROFILE_GET (R54). -/
def execProfileGet (tag : Byte) (id : Nat) (s : State) : Host.Outcome State Fault Refusal :=
  .next (deliver (.profileGet tag id) s)

/-- CURE_SET (R60). -/
def execCureSet (tag : Byte) (body : CureBody) (s : State) : Host.Outcome State Fault Refusal :=
  .next (deliver (.cureSet tag body) s)

/-- SPIT_SET (R62). -/
def execSpitSet (tag : Byte) (body : SpitBody) (s : State) : Host.Outcome State Fault Refusal :=
  .next (deliver (.spitSet tag body) s)

/-- NOZZLE_SET (R126). -/
def execNozzleSet (tag : Byte) (entries : List NozzleEntry) (s : State) : Host.Outcome State Fault Refusal :=
  .next (deliver (.nozzleSet tag entries) s)

/-- NOZZLE_GET (R127). -/
def execNozzleGet (tag : Byte) (channel row : Nat) (s : State) : Host.Outcome State Fault Refusal :=
  .next (deliver (.nozzleGet tag channel row) s)

/-- IMAGE_OPEN (R29). -/
def execImageOpen (tag : Byte) (id w h x0 y0 channels rush : Nat) (s : State) : Host.Outcome State Fault Refusal :=
  .next (deliver (.imageOpen tag id w h x0 y0 channels rush) s)

/-- BAND (R33). -/
def execBand (tag : Byte) (channel index encoding : Nat) (data : List Byte) (s : State) :
    Host.Outcome State Fault Refusal :=
  .next (deliver (.band tag channel index encoding data) s)

/-- IMAGE_CLOSE (R37). -/
def execImageClose (tag : Byte) (s : State) : Host.Outcome State Fault Refusal :=
  .next (deliver (.imageClose tag) s)

/-- IMAGE_ABORT (R36). -/
def execImageAbort (tag : Byte) (s : State) : Host.Outcome State Fault Refusal :=
  .next (deliver (.imageAbort tag) s)

/-- IMAGE_DELETE (R42). -/
def execImageDelete (tag : Byte) (id : Nat) (s : State) : Host.Outcome State Fault Refusal :=
  .next (deliver (.imageDelete tag id) s)

/-- IMAGE_GET (R48). -/
def execImageGet (tag : Byte) (id : Nat) (s : State) : Host.Outcome State Fault Refusal :=
  .next (deliver (.imageGet tag id) s)

/-- ORDER_ADD (R4). -/
def execOrderAdd (tag : Byte) (id priority : Nat) (items : List ItemBody) (s : State) :
    Host.Outcome State Fault Refusal :=
  .next (deliver (.orderAdd tag id priority items) s)

/-- ORDER_RUSH (R11). -/
def execOrderRush (tag : Byte) (id : Nat) (s : State) : Host.Outcome State Fault Refusal :=
  .next (deliver (.orderRush tag id) s)

/-- ORDER_CANCEL (R21). -/
def execOrderCancel (tag : Byte) (id : Nat) (s : State) : Host.Outcome State Fault Refusal :=
  .next (deliver (.orderCancel tag id) s)

/-- ORDER_GET (R23). -/
def execOrderGet (tag : Byte) (id : Nat) (s : State) : Host.Outcome State Fault Refusal :=
  .next (deliver (.orderGet tag id) s)

/-- GARMENT_GET (R88). -/
def execGarmentGet (tag : Byte) (serial : Nat) (s : State) : Host.Outcome State Fault Refusal :=
  .next (deliver (.garmentGet tag serial) s)

/-- RECURE_DROP (R186). -/
def execRecureDrop (tag : Byte) (serial : Nat) (s : State) : Host.Outcome State Fault Refusal :=
  .next (deliver (.recureDrop tag serial) s)

/-- BIN_CLEAR (R190). -/
def execBinClear (tag : Byte) (bin force : Nat) (s : State) : Host.Outcome State Fault Refusal :=
  .next (deliver (.binClear tag bin force) s)

/-- FLUID_FILLED (R95). -/
def execFluidFilled (tag : Byte) (s : State) : Host.Outcome State Fault Refusal :=
  .next (deliver (.fluidFilled tag) s)

/-- LINE_START (R71). -/
def execLineStart (tag : Byte) (s : State) : Host.Outcome State Fault Refusal :=
  .next (deliver (.lineStart tag) s)

/-- LINE_STOP (R72). -/
def execLineStop (tag : Byte) (s : State) : Host.Outcome State Fault Refusal :=
  .next (deliver (.lineStop tag) s)

/-- LINE_HALT (R73). -/
def execLineHalt (tag : Byte) (s : State) : Host.Outcome State Fault Refusal :=
  .next (deliver (.lineHalt tag) s)

/-- ALARM_GET (R203). -/
def execAlarmGet (tag : Byte) (kind number : Nat) (s : State) : Host.Outcome State Fault Refusal :=
  .next (deliver (.alarmGet tag kind number) s)

/-- ALARM_ACK (R199). -/
def execAlarmAck (tag : Byte) (kind number count : Nat) (s : State) : Host.Outcome State Fault Refusal :=
  .next (deliver (.alarmAck tag kind number count) s)

/-- DRILL_STEP (R207). -/
def execDrillStep (tag : Byte) (s : State) : Host.Outcome State Fault Refusal :=
  .next (deliver (.drillStep tag) s)

/-- FRAME_REJECTED (R215): a frame with a plausible header that fails a link check is answered with that check's status.
The bytes of any other are read as the stream has them (R214, R216; log entry 15). -/
def execFrameRejected (kind tag : Byte) (body : List Byte) (crc : Crc) (s : State) :
    Host.Outcome State Fault Refusal :=
  .next (if plausible kind body.length && (linkCheck { kind := kind, tag := tag, body := body, crc := crc }).isSome then
    deliver (.frameRejected kind tag body crc) s
  else arrive (chunkOf (.frameRejected kind tag body crc)) s)

/-- IMPLAUSIBLE_HEADER (R214): the sync and the header's four bytes are read; an implausible header is discarded without
a reply, and its own bytes are searched again. -/
def execImplausibleHeader (kind tag hi lo : Byte) (s : State) : Host.Outcome State Fault Refusal :=
  .next (arrive (chunkOf (.implausibleHeader kind tag hi lo)) s)

/-- REPLY_READ (R218). -/
def execReplyRead (s : State) : Host.Outcome State Fault Refusal := .next (replyRead s)

/-- USB_CONFIGURED (R212). -/
def execUsbConfigured (s : State) : Host.Outcome State Fault Refusal := .next (configure s)

end Sys2Proof.Machine
end

