-- ==== Sys2Proof/Machine/Stations.lean ====
section
/-!
DEFINITION. The meanings of the events at PRETREAT, FLASH and PRINT (R89, R96, R97, R100 to R104, R107 to R112,
R120, R140).
-/

namespace Sys2Proof.Machine

/-- TRAVERSE_START (R96). -/
def execTraverseStart (s : State) : Host.Outcome State Fault Refusal := .next (transmit (startTraverse s))

/-- VALVE_DELAY_EXPIRY (R89). -/
def execValveDelayExpiry (lane : Nat) (s : State) : Host.Outcome State Fault Refusal := .next (openValve lane s)

/-- VALVE_CLOSE_EXPIRY (R96). -/
def execValveCloseExpiry (lane : Nat) (s : State) : Host.Outcome State Fault Refusal := .next (closeValve lane s)

/-- ROW_WINDOW_END (R96). -/
def execRowWindowEnd (s : State) : Host.Outcome State Fault Refusal := .next (settle (endRow s))

/-- TRAVERSE_END (R97). -/
def execTraverseEnd (s : State) : Host.Outcome State Fault Refusal := .next (settle (endTraverse s))

/-- BAR_RETURN_END (R96). -/
def execBarReturnEnd (s : State) : Host.Outcome State Fault Refusal := .next (settle (parkBar s))

/-- FLASH_SAMPLE (R100). -/
def execFlashSample (reading : Reading) (s : State) : Host.Outcome State Fault Refusal :=
  .next (settle (sampleFlash reading s))

/-- FLASH_WAIT_EXPIRY (R102). -/
def execFlashWaitExpiry (s : State) : Host.Outcome State Fault Refusal := .next (settle (expireFlashWait s))

/-- FLASH_DWELL_EXPIRY (R104). -/
def execFlashDwellExpiry (s : State) : Host.Outcome State Fault Refusal := .next (settle (expireDwell s))

/-- PRINT_START (R110). -/
def execPrintStart (s : State) : Host.Outcome State Fault Refusal := .next (transmit (startPrint s))

/-- SPIT_COMPLETE (R140). -/
def execSpitComplete (s : State) : Host.Outcome State Fault Refusal := .next (settle (completeSpit s))

/-- SHUTTLE_ENCODER_COUNT (R107). -/
def execShuttleEncoderCount (forward : Bool) (reads : List ReadResult) (s : State) :
    Host.Outcome State Fault Refusal := .next (settle (encoderCount forward reads s))

/-- SCALE_MARK (R112). -/
def execScaleMark (reads : List ReadResult) (s : State) : Host.Outcome State Fault Refusal :=
  .next (settle (scaleMarkReport reads s))

/-- HOME_SENSOR (R108). -/
def execHomeSensor (s : State) : Host.Outcome State Fault Refusal := .next (settle (homeReport s))

/-- NO_SIGNAL_EXPIRY (R120). -/
def execNoSignalExpiry (s : State) : Host.Outcome State Fault Refusal := .next (settle (loseSignal s))

end Sys2Proof.Machine
end

