-- ==== Sys2Proof/Machine/Dispatch.lean ====
section
/-!
DEFINITION. One arm for each command: exec c s is the effect of the command c on everything but the queue.
-/

namespace Sys2Proof.Machine

def exec (i : Instr) (s : State) : Host.Outcome State Fault Refusal :=
  match i with
  | .powerOn estop guards => Sys2Proof.Machine.execPowerOn estop guards s
  | .ident tag => Sys2Proof.Machine.execIdent tag s
  | .statusGet tag => Sys2Proof.Machine.execStatusGet tag s
  | .reset tag => Sys2Proof.Machine.execReset tag s
  | .configSet tag key entries => Sys2Proof.Machine.execConfigSet tag key entries s
  | .configGet tag => Sys2Proof.Machine.execConfigGet tag s
  | .profileSet tag key id body => Sys2Proof.Machine.execProfileSet tag key id body s
  | .profileGet tag id => Sys2Proof.Machine.execProfileGet tag id s
  | .cureSet tag body => Sys2Proof.Machine.execCureSet tag body s
  | .spitSet tag body => Sys2Proof.Machine.execSpitSet tag body s
  | .nozzleSet tag entries => Sys2Proof.Machine.execNozzleSet tag entries s
  | .nozzleGet tag channel row => Sys2Proof.Machine.execNozzleGet tag channel row s
  | .imageOpen tag id w h x0 y0 channels rush => Sys2Proof.Machine.execImageOpen tag id w h x0 y0 channels rush s
  | .band tag channel index encoding data => Sys2Proof.Machine.execBand tag channel index encoding data s
  | .imageClose tag => Sys2Proof.Machine.execImageClose tag s
  | .imageAbort tag => Sys2Proof.Machine.execImageAbort tag s
  | .imageDelete tag id => Sys2Proof.Machine.execImageDelete tag id s
  | .imageGet tag id => Sys2Proof.Machine.execImageGet tag id s
  | .orderAdd tag id priority items => Sys2Proof.Machine.execOrderAdd tag id priority items s
  | .orderRush tag id => Sys2Proof.Machine.execOrderRush tag id s
  | .orderCancel tag id => Sys2Proof.Machine.execOrderCancel tag id s
  | .orderGet tag id => Sys2Proof.Machine.execOrderGet tag id s
  | .garmentGet tag serial => Sys2Proof.Machine.execGarmentGet tag serial s
  | .recureDrop tag serial => Sys2Proof.Machine.execRecureDrop tag serial s
  | .binClear tag bin force => Sys2Proof.Machine.execBinClear tag bin force s
  | .fluidFilled tag => Sys2Proof.Machine.execFluidFilled tag s
  | .lineStart tag => Sys2Proof.Machine.execLineStart tag s
  | .lineStop tag => Sys2Proof.Machine.execLineStop tag s
  | .lineHalt tag => Sys2Proof.Machine.execLineHalt tag s
  | .alarmGet tag kind number => Sys2Proof.Machine.execAlarmGet tag kind number s
  | .alarmAck tag kind number count => Sys2Proof.Machine.execAlarmAck tag kind number count s
  | .drillStep tag => Sys2Proof.Machine.execDrillStep tag s
  | .frameRejected kind tag body crc => Sys2Proof.Machine.execFrameRejected kind tag body crc s
  | .implausibleHeader kind tag lenHigh lenLow => Sys2Proof.Machine.execImplausibleHeader kind tag lenHigh lenLow s
  | .replyRead => Sys2Proof.Machine.execReplyRead s
  | .noticeSendStart => Sys2Proof.Machine.execNoticeSendStart s
  | .noticeSent => Sys2Proof.Machine.execNoticeSent s
  | .usbBusReset => Sys2Proof.Machine.execUsbBusReset s
  | .usbConfigured => Sys2Proof.Machine.execUsbConfigured s
  | .loadScan => Sys2Proof.Machine.execLoadScan s
  | .entryRecord => Sys2Proof.Machine.execEntryRecord s
  | .exitRecord => Sys2Proof.Machine.execExitRecord s
  | .scannerFramingFault line => Sys2Proof.Machine.execScannerFramingFault line s
  | .scannerOverlong line char => Sys2Proof.Machine.execScannerOverlong line char s
  | .footswitchPress => Sys2Proof.Machine.execFootswitchPress s
  | .skipPress => Sys2Proof.Machine.execSkipPress s
  | .estopChange active => Sys2Proof.Machine.execEstopChange active s
  | .guardChange guard high => Sys2Proof.Machine.execGuardChange guard high s
  | .indexStart => Sys2Proof.Machine.execIndexStart s
  | .indexSensor => Sys2Proof.Machine.execIndexSensor s
  | .indexTimeout => Sys2Proof.Machine.execIndexTimeout s
  | .transferComplete => Sys2Proof.Machine.execTransferComplete s
  | .traverseStart => Sys2Proof.Machine.execTraverseStart s
  | .valveDelayExpiry lane => Sys2Proof.Machine.execValveDelayExpiry lane s
  | .valveCloseExpiry lane => Sys2Proof.Machine.execValveCloseExpiry lane s
  | .rowWindowEnd => Sys2Proof.Machine.execRowWindowEnd s
  | .traverseEnd => Sys2Proof.Machine.execTraverseEnd s
  | .barReturnEnd => Sys2Proof.Machine.execBarReturnEnd s
  | .flashSample reading => Sys2Proof.Machine.execFlashSample reading s
  | .flashWaitExpiry => Sys2Proof.Machine.execFlashWaitExpiry s
  | .flashDwellExpiry => Sys2Proof.Machine.execFlashDwellExpiry s
  | .printStart => Sys2Proof.Machine.execPrintStart s
  | .spitComplete => Sys2Proof.Machine.execSpitComplete s
  | .shuttleEncoderCount forward reads => Sys2Proof.Machine.execShuttleEncoderCount forward reads s
  | .scaleMark reads => Sys2Proof.Machine.execScaleMark reads s
  | .homeSensor => Sys2Proof.Machine.execHomeSensor s
  | .noSignalExpiry => Sys2Proof.Machine.execNoSignalExpiry s
  | .scanStart => Sys2Proof.Machine.execScanStart s
  | .scanPageRead result => Sys2Proof.Machine.execScanPageRead result s
  | .tunnelSample z1 z2 z3 => Sys2Proof.Machine.execTunnelSample z1 z2 z3 s
  | .beltEncoderCount => Sys2Proof.Machine.execBeltEncoderCount s
  | .beltStallExpiry => Sys2Proof.Machine.execBeltStallExpiry s
  | .diverterHoldEnd => Sys2Proof.Machine.execDiverterHoldEnd s
  | .scannerCharacter line char => Sys2Proof.Machine.execScannerCharacter line char s

end Sys2Proof.Machine
end

