-- ==== Sys2Proof/Safety.lean ====
section
/-!
DEFINITION. The terms the statements use: what it means that the part takes a request and answers it, what may go on by
itself after an event, the invariants that every step keeps, and what a safe step is.
-/

namespace Sys2Proof.Machine

/-! ## Taking and answering a request -/

/-- The part takes a frame at the event that brings it: it is configured, its reply slot is empty, no byte waits in the
pipe, and the parser seeks a sync (R212, R214). -/
def Reads (s : State) : Prop :=
  s.lnk.configured = true ∧ s.lnk.reply = none ∧ s.lnk.pipe = [] ∧ (s.lnk.parser = .hunt ∨ s.lnk.parser = .sync)

/-- A frame that LNK answers without taking it as a request: its header is plausible and a link check fails (R214,
R215). -/
def Answered (f : Received) : Prop := plausible f.kind f.body.length = true ∧ linkCheck f ≠ none

/-- No frame but its own is read at the command: no byte waits in the pipe, the parser seeks a sync, and a rejected
frame is one that LNK answers. -/
def Apart (c : Instr) (s : State) : Prop :=
  s.lnk.pipe = [] ∧ (s.lnk.parser = .hunt ∨ s.lnk.parser = .sync) ∧
  ∀ k t b r, c = .frameRejected k t b r → Answered { kind := k, tag := t, body := b, crc := r }

/-- `u` with the reply to a frame in the slot: kind + 0x80, the frame's tag, the status byte and the content (R213,
R217). The parser hunts for the next frame (R214), and an IDLE transmitter takes the reply first (R218). -/
def replied (kind tag : Byte) (st : Status) (content : List Byte) (u : State) : State :=
  { u with lnk := { u.lnk with
      parser := .hunt
      reply := some { kind := kind + 0x80, tag := tag, body := be 1 st.code ++ content }
      tx := if u.lnk.tx = .idle then .sendingReply else u.lnk.tx } }

/-- `u` with one reference appended to its notice list (R219). -/
def noted (r : Ref) (u : State) : State := { u with lnk := { u.lnk with notices := noteIn r u.lnk.notices } }

/-- The status of an acceptance: CLAMPED where a value was clamped (R55, R217). -/
def acceptStatus (clamped : Bool) : Status := if clamped then .clamped else .ok

/-- `u` with the record of alarm instance `i` changed and the instance appended, unless it is masked (R197, R202). -/
def alarmed (i : Nat) (f : Alarm → Alarm) (u : State) : State :=
  let w := { u with alm := { u.alm with alarms := u.alm.alarms.modify i f } }
  if masked i u = true then w else noted (.alarm i) w

/-- A record at the onset of a condition that lasts (R197). -/
def Alarm.begun (a : Alarm) : Alarm :=
  { state := .active, present := true, acked := false, count := min 255 (a.count + 1), simulated := false }

/-- A record at the onset of a momentary condition (R197). -/
def Alarm.passed (a : Alarm) : Alarm :=
  { state := .latched, present := false, acked := false, count := min 255 (a.count + 1), simulated := false }

/-- `u` with the end of the condition of instance `i` (R198): an ACTIVE instance becomes IDLE where it was acknowledged
and LATCHED elsewhere, and is appended; any other keeps its state. -/
def endedAt (i : Nat) (u : State) : State :=
  if (alarm i u).state = .active then
    alarmed i (fun a =>
      if a.acked = true then { a with state := .idle, present := false, acked := false, simulated := false }
      else { a with state := .latched, present := false }) u
  else { u with alm := { u.alm with alarms := u.alm.alarms.modify i fun a => { a with present := false } } }

/-- `u` with station `st` RELEASED, and the line appended where its hold reason was not NONE (R66). -/
def freed (st : Station) (u : State) : State :=
  setStation st { working := false, hold := .none } (if (station st u).hold = .none then u else noted .line u)

/-- `u` with the contents of the platen at station `st` replaced (R64). -/
def holding (st : Station) (c : Contents) (u : State) : State :=
  { u with car := { u.car with platens := u.car.platens.modify (positionOf st) fun p => { p with contents := c } } }

/-- `u` with the garment record of a serial changed. -/
def regarment (n : Nat) (f : Garment → Garment) (u : State) : State :=
  { u with car := { u.car with garments := tabMap n f u.car.garments } }

/-- `u` where a DRAINING line stops: STOPPED with no garment on a platen and no index in progress (R72); the stall timer
follows the belt (R158). -/
def drained (u : State) : State :=
  if u.car.line = .draining ∧ noGarmentOnPlatens u = true ∧ u.car.index = .none then
    noted .line { u with
      car := { u.car with line := .stopped, refused := false }
      ctc := { u.ctc with stallFrom :=
        if u.ctc.selected = 0 then none else if u.ctc.stallFrom.isSome then u.ctc.stallFrom else some u.clock } }
  else u

/-! ## Units, the pick queue and bins -/

/-- `u` with the unit of a sequence number and the order in a slot changed, and the order appended (R23). -/
def unitChanged (slot seq : Nat) (f : UnitRec → UnitRec) (g : Order → Order) (u : State) : State :=
  noted (.order slot) { u with ord := { u.ord with
    units := tabMap seq f u.ord.units, orders := tabMap slot g u.ord.orders } }

/-- `u` with an entry in the pick queue at the place that class and sequence number give (R7), and one more queued
reference on the image of an id (R10). -/
def queuedWith (e : QueueEntry) (image : Nat) (u : State) : State :=
  { u with
    ord := { u.ord with
      queue := u.ord.queue.takeWhile (fun d => d.before e) ++ e :: u.ord.queue.dropWhile fun d => d.before e }
    ims := { u.ims with images := match imageOf image u with
      | some (k, _) => tabMap k (fun i => { i with queuedRefs := i.queuedRefs + 1 }) u.ims.images
      | none => u.ims.images } }

/-- The units of the order in a slot that stand in a state. -/
def unitsIn (slot : Nat) (st : UnitState) (s : State) : Nat :=
  s.ord.units.countP fun p => p.2.slot == slot && p.2.state == st

/-- The queue entry stands for a QUEUED unit of the order in a slot. -/
def queuedFor (slot : Nat) (s : State) (e : QueueEntry) : Bool :=
  match tabGet e.seq s.ord.units with
  | some u => u.slot == slot && u.state == .queued
  | none => false

/-- The references that the QUEUED units of the order in slot `slot` hold on the image in slot `k` (R10). -/
def refsOf (slot k : Nat) (s : State) : Nat :=
  s.ord.units.countP fun p => p.2.slot == slot && p.2.state == .queued &&
    ((unitImage p.2 s).bind fun id => (imageOf id s).map Prod.fst) == some k

/-- `u` where the QUEUED units of an order have left the pick queue and given up their image references (R7, R10). -/
def unqueued (slot : Nat) (u : State) : State :=
  { u with
    ord := { u.ord with queue := u.ord.queue.filter fun e => !queuedFor slot u e }
    ims := { u.ims with images := u.ims.images.map fun p =>
      (p.1, { p.2 with queuedRefs := p.2.queuedRefs - refsOf slot p.1 u }) } }

/-- `u` where every QUEUED and WAIT_IMAGE unit of an order is removed (R21). -/
def waitingRemoved (slot : Nat) (u : State) : State :=
  let w := unqueued slot u
  { w with ord := { w.ord with
    units := u.ord.units.filter fun p => !(p.2.slot == slot && (p.2.state == .queued || p.2.state == .waitImage))
    orders := tabMap slot (fun o => { o with counts := { o.counts with
      queued := o.counts.queued - unitsIn slot .queued u
      waitImage := o.counts.waitImage - unitsIn slot .waitImage u } }) u.ord.orders } }

/-- `u` where an order is retired (R20): its units return to the pool, it is withdrawn, and it is appended. -/
def retiredAt (slot : Nat) (u : State) : State :=
  let w := unqueued slot u
  noted (.order slot) { w with ord := { w.ord with
    units := u.ord.units.filter fun p => p.2.slot != slot
    orders := tabMap slot (fun o => { o with withdrawn := true }) u.ord.orders } }

/-- `u` with bin `b` set and appended (R189). -/
def binned (b : Nat) (r : Bin) (u : State) : State :=
  noted (.bin b) { u with exs := { u.exs with bins := u.exs.bins.set (b - 1) r } }

/-- `u` where an order is retired by cancellation: a bin it held becomes FREE (R21, R189). -/
def cancelledAt (slot : Nat) (bin : Option Nat) (u : State) : State :=
  match bin with
  | some b => binned b { state := .free, order := none, count := 0 } (retiredAt slot u)
  | none => retiredAt slot u

/-- `u` where a bound unit leaves a CANCELLING order `o`, which is retired with the last one (R14, R17). -/
def unitLeft (slot seq : Nat) (o : Order) (u : State) : State :=
  let w := noted (.order slot) { u with ord := { u.ord with
    units := tabErase seq u.ord.units
    orders := tabMap slot (fun o => { o with counts := { o.counts with inLine := o.counts.inLine - 1 } }) u.ord.orders } }
  if o.counts.inLine ≤ 1 then cancelledAt slot o.bin w else w

/-- `u` where a bound unit of order `o` is DONE, and an OPEN order whose units are all DONE is COMPLETE (R15, R18): its
bin is set COMPLETE, and without one it is retired. -/
def unitDone (slot seq : Nat) (o : Order) (u : State) : State :=
  let all : Bool := o.state == .open_ && o.counts.done + 1 == (o.items.map Item.quantity).sum
  let w := unitChanged slot seq (fun v => { v with state := .done }) (fun o => { o with
    state := if all then .complete else o.state
    counts := { o.counts with inLine := o.counts.inLine - 1, done := o.counts.done + 1 } }) u
  match all, o.bin with
  | true, some b => binned b { binAt b u with state := .complete } w
  | true, none => retiredAt slot w
  | false, _ => w

/-- `u` where a bound unit of class `c` is QUEUED again, or waits for its image (R14, R16); `items` is what becomes of
the order's items. -/
def unitBack (slot seq : Nat) (c : UnitClass) (ready : Bool) (image : Nat) (items : List Item → List Item) (u : State) :
    State :=
  let w := unitChanged slot seq (fun v => { v with cls := c, state := if ready then .queued else .waitImage })
    (fun o => { o with
      items := items o.items
      counts := if ready then { o.counts with inLine := o.counts.inLine - 1, queued := o.counts.queued + 1 }
        else { o.counts with inLine := o.counts.inLine - 1, waitImage := o.counts.waitImage + 1 } }) u
  if ready then queuedWith { cls := c, seq := seq } image w else w

/-! ## What goes on by itself after an event -/

/-- `t` is `u` after the transmitter has chosen what to send: it may have started a frame, and taken references off the
head of the notice list for it (R218, R220). -/
structure Sent (u t : State) : Prop where
  rest : { t with lnk := u.lnk } = u
  link : { t.lnk with tx := u.lnk.tx, sending := u.lnk.sending, notices := u.lnk.notices } = u.lnk
  taken : t.lnk.notices <:+ u.lnk.notices

/-- `t` is `u` after whatever waited for the event has begun: the traverse (R96), the print with its spit or its first
stroke (R110), the index (R67, R69), the LOAD lamp with its line reference (R78), and the transmitter (R218). Nothing
else of `u` changes: no order, unit, setting, tunnel member, bin, alarm, garment record, platen, station or hold reason,
no page, plan, schedule, fluid or nozzle. A print and a traverse begin from WAITING alone, and no index starts while a
station is WORKING. -/
structure Onward (u t : State) : Prop where
  clock : t.clock = u.clock
  pending : t.pending = u.pending
  pins : t.pins = u.pins
  ord : t.ord = u.ord
  prf : t.prf = u.prf
  ctc : t.ctc = u.ctc
  exs : t.exs = u.exs
  alm : t.alm = u.alm
  link : { t.lnk with tx := u.lnk.tx, sending := u.lnk.sending, notices := u.lnk.notices } = u.lnk
  notices : t.lnk.notices <:+ u.lnk.notices ∨ t.lnk.notices <:+ noteIn .line u.lnk.notices
  store : { t.ims with images := u.ims.images } = u.ims
  images : t.ims.images.map (fun p => (p.1, { p.2 with printActive := false })) =
    u.ims.images.map fun p => (p.1, { p.2 with printActive := false })
  car : { t.car with index := u.car.index, indexRun := u.car.indexRun, indexFrom := u.car.indexFrom,
                     lamp := u.car.lamp } = u.car
  ptr : { t.ptr with bar := u.ptr.bar, barTravel := u.ptr.barTravel, barFrom := u.ptr.barFrom, job := u.ptr.job,
                     row := u.ptr.row, valves := u.ptr.valves } = u.ptr
  plan : t.shf.plan = u.shf.plan
  nozzles : t.fdp.nozzles = u.fdp.nozzles
  noPrint : u.shf.job ≠ .waiting → t.shf = u.shf ∧ t.fdp = u.fdp ∧ t.ims = u.ims
  noTraverse : u.ptr.job ≠ .waiting → t.ptr = u.ptr
  noIndex : u.car.index = .none → (∃ st, (station st u).working = true) → { t.car with lamp := u.car.lamp } = u.car

/-! ## Invariants -/

/-- The part leaves no byte unread that it may read: bytes wait in the pipe only while the reply slot is full or the
function is not configured (R212). -/
def PipeDrained (s : State) : Prop := s.lnk.pipe ≠ [] → s.lnk.configured = false ∨ s.lnk.reply ≠ none

/-- The notice list holds no reference twice (R219). -/
def NoticesDistinct (s : State) : Prop := s.lnk.notices.Nodup

/-- The pick queue stands in class-then-sequence order (R6). -/
def QueueInOrder (s : State) : Prop := s.ord.queue.Pairwise fun a b => b.before a = false

/-- The pick queue holds one entry for each QUEUED unit, with its class, and no other (R6). -/
def QueueHolds (s : State) : Prop :=
  (s.ord.queue.map QueueEntry.seq).Nodup ∧
  ∀ e : QueueEntry, e ∈ s.ord.queue ↔ ∃ u, tabGet e.seq s.ord.units = some u ∧ u.state = .queued ∧ u.cls = e.cls

/-- The units that name an image and stand in state `a` have taken state `b` from `s` to `t`, with the counts of their
orders and the pick queue; no other unit or order has changed (R8, R9). -/
structure UnitsFollow (image : Nat) (a b : UnitState) (s t : State) : Prop where
  units : t.ord.units = s.ord.units.map fun p =>
    (p.1, { p.2 with state := if p.2.state = a ∧ unitImage p.2 s = some image then b else p.2.state })
  orders : ∀ slot, tabGet slot t.ord.orders = (tabGet slot s.ord.orders).map fun o =>
    let n := s.ord.units.countP fun p => p.2.slot == slot && p.2.state == a && unitImage p.2 s == some image
    { o with counts := if b = .queued then
        { o.counts with waitImage := o.counts.waitImage - n, queued := o.counts.queued + n }
      else { o.counts with queued := o.counts.queued - n, waitImage := o.counts.waitImage + n } }
  holds : QueueHolds s → QueueHolds t
  inOrder : QueueInOrder s → QueueInOrder t
  seq : t.ord.seq = s.ord.seq

/-- The selected belt speed lies within the current [s_min, s_max] (R156). -/
def SpeedInRange (s : State) : Prop := s.prf.cure.sMin ≤ s.ctc.selected ∧ s.ctc.selected ≤ s.prf.cure.sMax

/-- The store is in its canonical form. -/
def StoreCanonical (s : State) : Prop := Memory.wf s.ims.store = true

/-- An alarm record is sound (R195, R207): the count is at most 255, an ACTIVE instance has its condition present,
Acknowledged is set on an ACTIVE instance only, and SIMULATED on a LATCHED one only. -/
def Alarm.sound (a : Alarm) : Prop :=
  a.count ≤ 255 ∧ (a.state = .active → a.present = true) ∧ (a.acked = true → a.state = .active) ∧
  (a.simulated = true → a.state = .latched)

/-- Every alarm record is sound. -/
def AlarmsSound (s : State) : Prop := ∀ a ∈ s.alm.alarms, a.sound

/-- The tables of fixed size have it: 16 profiles (R50), 14 senses and 22 masks (R56), 3 zones (R146), 24 bins (R187),
22 alarm records (R194), and 8 platens, each platen number once (R64). -/
def Shaped (s : State) : Prop :=
  s.prf.profiles.length = 16 ∧ s.prf.line.senses.length = 14 ∧ s.prf.line.masks.length = 22 ∧
  s.prf.line.laneDelays.length = 8 ∧ s.ctc.zones.length = 3 ∧ s.exs.bins.length = 24 ∧ s.alm.alarms.length = 22 ∧
  (s.car.platens.map Platen.number).Perm (List.range 8)

/-- The keyed tables are in rising key order, so that a key names one record (R1, R3, R27, R79, R125). -/
def Keyed (s : State) : Prop :=
  tabWf s.ord.orders = true ∧ tabWf s.ord.units = true ∧ tabWf s.ims.images = true ∧ tabWf s.car.garments = true ∧
  tabWf s.fdp.nozzles = true

/-! ## The halt -/

/-- `t` is `s` at an entry to HALTED (R73): the index is PAUSED, the transfer and the shuttle stop, the lamp and the
heaters are off, the belt stall timer stops, and a drill ends. Stations keep their WORKING or RELEASED state, platens
their contents, and orders, settings, bins, the tunnel list, the store and the nozzle map stay as they are. -/
structure HaltedFrom (s t : State) : Prop where
  line : t.car.line = .halted
  index : t.car.index = if s.car.index = .moving then .paused else s.car.index
  transfer : t.car.transfer = if s.car.transfer = .running then .stopped else s.car.transfer
  lamp : t.car.lamp = .off ∧ t.car.refused = false
  platens : t.car.platens = s.car.platens
  stations : ∀ st, (station st t).working = (station st s).working
  heater : t.ptr.heater = false
  bar : t.ptr.bar = s.ptr.bar ∧ (s.ptr.bar ≠ .parked → t.ptr.barFrom = none)
  shuttle : t.shf.shuttle = (if s.shf.shuttle = .home then .home else .stopped) ∧ t.shf.noSignal = none
  duties : ∀ z ∈ t.ctc.zones, z.duty = 0
  belt : t.ctc = { s.ctc with zones := t.ctc.zones, stallFrom := none }
  drill : t.alm.drill = 0 ∧ ∀ i < 22, (alarm i t).simulated = false
  ord : t.ord = s.ord
  prf : t.prf = s.prf
  exs : t.exs = s.exs
  store : t.ims.store = s.ims.store ∧ t.ims.retired = s.ims.retired
  nozzles : t.fdp.nozzles = s.fdp.nozzles
  clock : t.clock = s.clock

/-- Garment `n` stands at station `st`, and no index is in progress. -/
abbrev AtStation (st : Station) (n : Nat) (s : State) : Prop := s.car.index = .none ∧ contentsAt st s = .garment n

/-- The time for which a lane has sprayed so far, in valve units (R98): the rows that are over, and of the row at hand
its cell time where the valve has closed, and the time since it opened, up to the cell time, where it is open. -/
def sprayedUnits (c : Schedule) (lane : Nat) (s : State) : Nat :=
  let time : Nat → Nat := fun row => (c.times[13 * lane + row]?).getD 0
  ((List.range s.ptr.row).map time).sum + match s.ptr.valves[lane]? with
    | some (.open_ since) => min (time s.ptr.row) ((s.clock - since) / 100)
    | some .closed => time s.ptr.row
    | _ => 0

/-- The fluid sprayed so far in a traverse, in µg (R98). -/
def fluidSprayed (c : Schedule) (s : State) : Nat := ((List.range 8).map fun lane => sprayedUnits c lane s).sum * c.flow

/-- The schedule of the traverse that sprays garment `n`, where one does (R96). -/
def traverseOf (n : Nat) (s : State) : Option Schedule :=
  if AtStation .pretreat n s ∧ s.ptr.job = .spraying then s.ptr.schedule else none

/-- The whole seconds for which the press has stood closed on garment `n`, where it does (R105). -/
def pressedFor (n : Nat) (s : State) : Option Nat :=
  if AtStation .flash n s ∧ s.ptr.flashJob = .pressing then s.ptr.dwellFrom.map fun a => (s.clock - a) / 1000000 else none

/-- SHF is in a print: in the spit, in a stroke, or in a return before a further stroke (R122). -/
abbrev InPrint (s : State) : Prop :=
  s.shf.job = .spit ∨ s.shf.job = .stroke ∨ (s.shf.job = .return_ ∧ s.shf.plan.strokes ≠ [])

/-- The record of a running stroke `k` that is aborted (R119, R141). -/
def abortedRecord (k : Stroke) (s : State) : StrokeRec :=
  { number := s.shf.stroke, first := (s.shf.plan.bounds s.shf.stroke).1, last := (s.shf.plan.bounds s.shf.stroke).2,
    framing := s.shf.framing, skipped := s.shf.skipped, blanked := s.shf.blanked, lostDots := k.lostDots,
    tickles := k.tickles, framer := s.shf.framer, aborted := true }

/-- What the entry to HALTED makes of the record of garment `n`: a traverse cut short gives it the dose actually sprayed
and PRETREAT_ABORTED (R98), a pressing cut short the whole seconds achieved, and UNDERDRIED where they are less than the
dwell (R105), a print cut short PRINT_ABORTED and the record of a running stroke (R122). -/
def haltedGarment (n : Nat) (s : State) (g : Garment) : Garment :=
  let achieved := (pressedFor n s).map fun t => min g.profile.dwell t
  let defects := if (traverseOf n s).isSome = true then addTo .pretreatAborted g.defects else g.defects
  let printed : Prop := AtStation .print n s ∧ InPrint s
  { g with
    dose := match traverseOf n s with
      | some c => min 65535 (fluidSprayed c s / 1000)
      | none => g.dose
    dwell := achieved.getD g.dwell
    warnings := if achieved.any (fun t => decide (t < g.profile.dwell)) = true then addTo .underdried g.warnings
      else g.warnings
    defects := if printed then addTo .printAborted defects else defects
    strokes := if printed then g.strokes ++ (s.fdp.stroke.map fun k => abortedRecord k s).toList else g.strokes }

/-- What the entry to HALTED does to the work at the stations, from `s` to `t`. PRETREAT (R98): the valves close, the
traverse is CUT with the fluid actually sprayed taken from the tank, the bar stops where it stands, and a garment that
is held or waits stays so. FLASH (R105): the press opens and the pressing is CUT, a cold wait ends, a hot wait stays and is
not over.
PRINT (R122): a print is aborted and CUT, with Print active cleared, and other work stays. Every garment record is what
`haltedGarment` says. The model's choice: the job and the hold reason after a cold wait are NONE (log entry 22), and the
counters and the framer state of an aborted stroke stay (log entry 34). -/
structure HaltedWork (s t : State) : Prop where
  garments : ∀ n, garment n t = (garment n s).map (haltedGarment n s)
  stations : ∀ st, station st t = { station st s with
    hold := if st = .flash ∧ s.ptr.flashJob = .cold then .none else (station st s).hold }
  traverse : ∀ n c, AtStation .pretreat n s → s.ptr.job = .spraying → s.ptr.schedule = some c →
    t.ptr.job = .cut ∧ t.ptr.schedule = none ∧ t.ptr.row = 0 ∧ t.ptr.valves = List.replicate 8 .closed ∧
    t.ptr.tank = s.ptr.tank - fluidSprayed c s
  noTraverse : s.ptr.job ≠ .spraying → t.ptr.job = s.ptr.job ∧ t.ptr.schedule = s.ptr.schedule ∧
    t.ptr.row = s.ptr.row ∧ t.ptr.valves = s.ptr.valves ∧ t.ptr.tank = s.ptr.tank
  travel : t.ptr.barTravel = match s.ptr.bar, s.ptr.barFrom with
    | .out, some a => s.ptr.barTravel + (s.clock - a)
    | .back, some a => s.ptr.barTravel - (s.clock - a)
    | _, _ => s.ptr.barTravel
  press : ∀ n g a, AtStation .flash n s → s.ptr.flashJob = .pressing → garment n s = some g → s.ptr.dwellFrom = some a →
    t.ptr.flashJob = .cut ∧ t.ptr.pressClosed = false ∧ t.ptr.dwellFrom = none
  cold : s.ptr.flashJob = .cold → t.ptr.flashJob = .none ∧ t.ptr.waitFrom = none ∧ t.ptr.pressClosed = s.ptr.pressClosed
  hot : s.ptr.flashJob = .hot → t.ptr.hotOver = false
  noPress : s.ptr.flashJob ≠ .pressing → s.ptr.flashJob ≠ .cold → t.ptr.flashJob = s.ptr.flashJob ∧
    t.ptr.pressClosed = s.ptr.pressClosed ∧ t.ptr.waitFrom = s.ptr.waitFrom ∧ t.ptr.dwellFrom = s.ptr.dwellFrom
  print : ∀ n, AtStation .print n s → InPrint s →
    t.shf = { s.shf with
      shuttle := if s.shf.shuttle = .home then .home else .stopped, noSignal := none, job := .cut, stroke := 0,
      plan := { s.shf.plan with strokes := [] } } ∧
    t.fdp = { s.fdp with stroke := none, spit := none, head := [] }
  printActive : ∀ n g, AtStation .print n s → InPrint s → garment n s = some g →
    (g.image = none → t.ims = s.ims) ∧
    ∀ id k im, g.image = some id → imageOf id s = some (k, im) →
      t.ims = { s.ims with images := tabMap k (fun i => { i with printActive := false }) s.ims.images }
  noPrint : ¬ InPrint s →
    t.shf = { s.shf with shuttle := if s.shf.shuttle = .home then .home else .stopped, noSignal := none } ∧
    t.fdp = s.fdp ∧ t.ims = s.ims

/-- What PTR decides for a garment at a WORKING FLASH station, from `s` to `t`, by the latest reading (R101): the hot
wait, the cold wait with a fresh timer, or the press closes (R102 to R104). -/
def FlashDecided (g : Garment) (s t : State) : Prop :=
  let bad : Prop := s.ptr.flashFaulted = true ∨ g.profile.tfMax < s.ptr.flashReading
  (bad → Shaped s → t.ptr.flashJob = .hot ∧ (alarm 6 t).present = true ∧
    station .flash t = { working := true, hold := .flashHot }) ∧
  (¬ bad → (alarm 6 t).present = false) ∧
  (¬ bad → s.ptr.flashReading < g.profile.tfMin → t.ptr.flashJob = .cold ∧ t.ptr.waitFrom = some s.clock ∧
    t.ptr.waitLimit = s.prf.line.flashWait ∧ station .flash t = { working := true, hold := .preheat }) ∧
  (¬ bad → g.profile.tfMin ≤ s.ptr.flashReading → t.ptr.flashJob = .pressing ∧ t.ptr.pressClosed = true ∧
    t.ptr.dwellFrom = some s.clock ∧ station .flash t = { working := true, hold := .none })

/-- What the line resume does, from `s` in HALTED to `t` in RUNNING, DRAINING or STOPPED (R74). A transfer that the halt
stopped starts again (R86). PRETREAT (R98): a CUT garment is released PRETREATED, a stopped bar returns, and a garment
whose traverse has not begun takes the fluid test of R94. FLASH (R105): a CUT garment is released FLASHED, one whose
cold wait was ended is decided again, and a HOT one where its wait is over by what came in HALTED (`hotOver`: FLASH_HOT
became IDLE, as AcknowledgementAndDrill and FlashPress state it), whatever the alarm reads at the resume; any other HOT
garment stays HOT. PRINT (R122): a CUT garment is released
PRINTED with the shuttle HOME, and else the shuttle homes; a stopped last return goes on as a homing; a WAITING print
starts with the shuttle HOME; a STOPPED shuttle with no print to end homes where ENCODER is IDLE (R121), a HELD print
leaving its hold. The model's choice: the homing of a last return, which keeps the job state RETURN (log entry 38); the
homing with a WAITING garment, and of a shuttle whose ENCODER became IDLE during HALTED (log entry 41); a hot
wait with FLASH_HOT IDLE before the halt is over too where its condition ended in HALTED (log entry 42). -/
structure ResumedFrom (s t : State) : Prop where
  transfer : t.car.transfer = if s.car.transfer = .stopped then .running else s.car.transfer
  garments : ∀ n, garment n t = (garment n s).map fun g => { g with
    stage := if AtStation .print n s ∧ s.shf.job = .cut ∧ s.shf.shuttle = .home then .printed
      else if AtStation .flash n s ∧ s.ptr.flashJob = .cut then .flashed
      else if AtStation .pretreat n s ∧ s.ptr.job = .cut then .pretreated else g.stage }
  bar : s.ptr.bar ≠ .parked → s.ptr.barFrom = none →
    t.ptr.bar = .back ∧ t.ptr.barFrom = some s.clock ∧ t.ptr.barTravel = s.ptr.barTravel
  pretreatCut : ∀ n, AtStation .pretreat n s → s.ptr.job = .cut →
    station .pretreat t = { working := false, hold := .none } ∧ t.ptr.job = .none ∧ t.ptr.schedule = none
  fluidFits : ∀ c, s.ptr.job = .held ∨ s.ptr.job = .waiting → s.ptr.schedule = some c →
    c.fluid + s.prf.line.tankReserve * 1000000 ≤ s.ptr.tank →
    station .pretreat t = { station .pretreat s with hold := .none } ∧ (alarm 4 t).present = false ∧
    ((t.car.line = .running ∨ t.car.line = .draining) ∧ s.ptr.bar = .parked → t.ptr.job = .spraying ∧ t.ptr.bar = .out) ∧
    (¬((t.car.line = .running ∨ t.car.line = .draining) ∧ s.ptr.bar = .parked) → t.ptr.job = .waiting)
  fluidLow : ∀ c, s.ptr.job = .held ∨ s.ptr.job = .waiting → s.ptr.schedule = some c → Shaped s →
    s.ptr.tank < c.fluid + s.prf.line.tankReserve * 1000000 →
    station .pretreat t = { station .pretreat s with hold := .fluidLow } ∧ (alarm 4 t).present = true ∧
    t.ptr.job = .held
  flashCut : ∀ n, AtStation .flash n s → s.ptr.flashJob = .cut →
    station .flash t = { working := false, hold := .none } ∧ t.ptr.flashJob = .none
  flashAgain : ∀ n g, AtStation .flash n s → garment n s = some g → 0 < g.profile.dwell → s.car.flash.working = true →
    s.ptr.flashJob = .none ∨ (s.ptr.flashJob = .hot ∧ s.ptr.hotOver = true) → FlashDecided g s t
  flashHot : s.ptr.flashJob = .hot → s.ptr.hotOver = false →
    t.ptr.flashJob = .hot ∧ station .flash t = station .flash s
  printHome : ∀ n, AtStation .print n s → s.shf.job = .cut → s.shf.shuttle = .home →
    station .print t = { working := false, hold := .none } ∧
    t.shf = { s.shf with job := .none, plan := .none, begun := false, stroke := 0 }
  printRef : ∀ n g id k im, AtStation .print n s → s.shf.job = .cut → s.shf.shuttle = .home → garment n s = some g →
    (∀ st, st ≠ .print → contentsAt st s ≠ .garment n) → g.image = some id → beforePrinted g = true →
    imageOf id s = some (k, im) →
    t.ims = { s.ims with images := tabMap k (fun i => { i with garmentRefs := i.garmentRefs - 1 }) s.ims.images }
  printCut : ∀ n, AtStation .print n s → s.shf.job = .cut → s.shf.shuttle ≠ .home → t.shf = { s.shf with
    shuttle := .homing, speed := s.prf.line.shuttleSpeed, noSignal := some s.clock } ∧
    station .print t = station .print s
  lastReturn : ∀ n, AtStation .print n s → s.shf.job = .return_ → s.shf.shuttle = .stopped → t.shf = { s.shf with
    shuttle := .homing, speed := s.prf.line.shuttleSpeed, noSignal := some s.clock } ∧
    station .print t = station .print s
  homes : s.shf.shuttle = .stopped → s.shf.job = .none ∨ s.shf.job = .waiting ∨ s.shf.job = .held →
    ownerIdle 3 s = true → t.shf = { s.shf with
      shuttle := .homing, speed := s.prf.line.shuttleSpeed, noSignal := some s.clock } ∧
    station .print t = { station .print s with hold := if s.shf.job = .held then .none else (station .print s).hold }
  waits : s.shf.shuttle = .stopped → s.shf.job = .none ∨ s.shf.job = .waiting ∨ s.shf.job = .held →
    ownerIdle 3 s = false → t.shf = s.shf ∧ station .print t = station .print s
  prints : ∀ n, AtStation .print n s → s.shf.job = .waiting → s.shf.shuttle = .home →
    t.shf.begun = true ∧ (t.shf.job = .spit ∨ t.shf.job = .stroke)
  alarms : ∀ i, i ≠ 4 → i ≠ 6 → alarm i t = alarm i s
  belt : t.ctc = { s.ctc with stallFrom :=
    if s.ctc.selected = 0 then none else if s.ctc.stallFrom.isSome then s.ctc.stallFrom else some s.clock }
  platens : t.car.platens = s.car.platens
  tank : t.ptr.tank = s.ptr.tank
  ord : t.ord = s.ord
  prf : t.prf = s.prf
  exs : t.exs = s.exs
  pins : t.pins = s.pins
  clock : t.clock = s.clock
  store : t.ims.store = s.ims.store
  nozzles : t.fdp.nozzles = s.fdp.nozzles

/-- A safe step: it answers a next state, with no fault and no refusal. -/
def Safe (o : Host.Outcome State Fault Refusal) : Prop := ∃ t, o = .next t

end Sys2Proof.Machine
end

