-- ==== Sys2Proof/Certificates/Slice0/Obligations.lean ====
section
/-!
DEFINITION. The statements about the model, chapter by chapter. A statement about one command says that the command
answers a next state, which one, and what it leaves alone; `replied`, `Sent` and `Onward` of Safety.lean say what the
link and the waiting conditions may add to it.
-/

open Sys2Proof Sys2Proof.Machine

/-! ## The machine as a whole -/

/-- A step takes the command at the front of the queue, runs it on the state with the queue's rest, and answers its
outcome; on an empty queue the clock counts 1 µs and nothing else changes (log entry 2: the model's choice). -/
def Obligations.StepRunsFront : Prop :=
  (∀ (s : State) (c : Instr) (rest : List Instr), s.pending = c :: rest → step s = exec c { s with pending := rest }) ∧
  ∀ s : State, s.pending = [] → step s = .next { s with clock := s.clock + 1 }

/-- Every command, whatever its operands and the state, answers a next state that keeps the queue; the clock changes
with POWER_ON only, the levels of e-stop and the guards with POWER_ON and their own events only, and that of KEY, where
no frame but the command's own is read, with the requests that read it only (R52). The model's choice: a command takes
no time by the clock (log entry 2); POWER_ON keeps the queue and the level of KEY (log entry 1); KEY comes with the
requests that read it, as an operand, and its level is kept with every answer (log entry 10). -/
def Obligations.EveryCommandAnswers : Prop :=
  ∀ (c : Instr) (s : State), ∃ t, exec c s = .next t ∧ t.pending = s.pending ∧
    ((∀ e g, c ≠ .powerOn e g) → t.clock = s.clock) ∧
    ((∀ e g, c ≠ .powerOn e g) → (∀ a, c ≠ .estopChange a) → t.pins.estop = s.pins.estop) ∧
    ((∀ e g, c ≠ .powerOn e g) → (∀ n h, c ≠ .guardChange n h) → t.pins.guards = s.pins.guards) ∧
    (Apart c s → (∀ t k es, c ≠ .configSet t k es) → (∀ t k i b, c ≠ .profileSet t k i b) → t.pins.key = s.pins.key)

/-- Profiles, settings and the nozzle map change at their own requests and at power-on only, and the bytes of the store
at BAND and power-on only: RESET keeps settings, profiles and the map (R63, R143, R225). The premise: no frame but the
command's own is read at it (R212). -/
def Obligations.SettingsKeptByOthers : Prop :=
  ∀ (c : Instr) (s t : State), Apart c s → exec c s = .next t → (∀ e g, c ≠ .powerOn e g) →
    ((∀ i k j b, c ≠ .profileSet i k j b) → t.prf.profiles = s.prf.profiles) ∧
    ((∀ i k es, c ≠ .configSet i k es) → t.prf.line = s.prf.line) ∧
    ((∀ i b, c ≠ .cureSet i b) → t.prf.cure = s.prf.cure) ∧
    ((∀ i b, c ≠ .spitSet i b) → t.prf.spit = s.prf.spit) ∧
    ((∀ i es, c ≠ .nozzleSet i es) → t.fdp.nozzles = s.fdp.nozzles) ∧
    ((∀ i ch b e d, c ≠ .band i ch b e d) → t.ims.store = s.ims.store)

/-! ## Invariants of every step -/

/-- The notice list stays without duplicates (R219). -/
def Obligations.NoticesStayDistinct : Prop :=
  ∀ s t : State, NoticesDistinct s → step s = .next t → NoticesDistinct t

/-- The pick queue stays in class-then-sequence order (R6, R7), and goes on holding one entry, with its class, for each
QUEUED unit and no other entry (R6). -/
def Obligations.QueueStaysInOrder : Prop :=
  (∀ s t : State, QueueInOrder s → step s = .next t → QueueInOrder t) ∧
  ∀ s t : State, Keyed s → QueueHolds s → step s = .next t → QueueHolds t

/-- The selected belt speed stays within the current range (R156). -/
def Obligations.SpeedStaysInRange : Prop :=
  ∀ s t : State, SpeedInRange s → step s = .next t → SpeedInRange t

/-- The store stays in its canonical form: rising addresses, and no entry of the byte that an unwritten address reads
as. The form is the model's own; that an unwritten byte reads 0 is the model's choice (log entry 4). -/
def Obligations.StoreStaysCanonical : Prop :=
  ∀ s t : State, StoreCanonical s → step s = .next t → StoreCanonical t

/-- The alarm records stay sound (R195, R207). -/
def Obligations.AlarmsStaySound : Prop :=
  ∀ s t : State, AlarmsSound s → step s = .next t → AlarmsSound t

/-- The tables of fixed size keep it, and the carousel keeps its eight platens (R64); the keyed tables stay in rising
key order, so that a key names one record. -/
def Obligations.TablesKeepTheirForm : Prop :=
  (∀ s t : State, Shaped s → step s = .next t → Shaped t) ∧
  (∀ s t : State, Keyed s → step s = .next t → Keyed t)

/-- The state after reset meets every invariant. -/
def Obligations.ResetMeetsInvariants : Prop :=
  NoticesDistinct State.reset ∧ QueueInOrder State.reset ∧ QueueHolds State.reset ∧ SpeedInRange State.reset ∧
  StoreCanonical State.reset ∧ AlarmsSound State.reset ∧ Shaped State.reset ∧ Keyed State.reset ∧ PipeDrained State.reset

/-- A cure dose never falls while a garment record lasts, and rises at TUNNEL_SAMPLE alone (R153). -/
def Obligations.DoseRisesAtSamplesOnly : Prop :=
  ∀ (c : Instr) (s t : State) (n : Nat) (g h : Garment), exec c s = .next t → (∀ e l, c ≠ .powerOn e l) →
    garment n s = some g → garment n t = some h → g.d ≤ 4000000000 →
    g.d ≤ h.d ∧ h.d ≤ 4000000000 ∧ ((∀ a b d, c ≠ .tunnelSample a b d) → h.d = g.d)

/-! ## Line Link -/

/-- The bytes of a frame read one by one from HUNT give exactly that frame, at its last CRC byte, and leave the parser
in HUNT; no byte before the last completes a frame (R213, R214). -/
def Obligations.ParserReadsFrames : Prop :=
  ∀ f : Frame, plausible f.kind f.body.length = true →
    ∃ (init : List Byte) (last : Byte), frameBytes f = init ++ [last] ∧
      (∀ k ≤ init.length, ∀ p, (init.take k).foldl (fun q b => (feed q b).1) .hunt = p →
        ∀ b, init[k]? = some b → (feed p b).2 = none) ∧
      feed (init.foldl (fun q b => (feed q b).1) .hunt) last =
        (.hunt, some { kind := f.kind, tag := f.tag, body := f.body, crc := frameCrc f.kind f.tag f.body })

/-- Decode and encode agree: a well-formed request, framed as R228 to R231 lay it out with its CRC, is read back as that
request, whatever its operands; `key` is the level of KEY at its taking. The model's choice: KEY stands beside the
frame, as an operand of the two requests that read it (log entry 10). -/
def Obligations.RequestsReadBack : Prop :=
  ∀ (c : Instr) (kind tag : Byte) (body : List Byte) (key : Bool), c.wf = true → bodyOf c = some (kind, tag, body) →
    (∀ k t b r, c ≠ .frameRejected k t b r) →
    (∀ t k es, c = .configSet t k es → k = key) → (∀ t k i b, c = .profileSet t k i b → k = key) →
    commandOf key { kind := kind, tag := tag, body := body, crc := frameCrc kind tag body } = some c

/-- FRAME_REJECTED (R215): of a frame with a plausible header the first link check that fails decides the reply, CRC
first, then kind, then length; it carries kind + 0x80 and the tag as received. One with an implausible header receives
no reply (R214, R216); where no byte behind its sync starts another, the parser hunts on. IMPLAUSIBLE_HEADER (R214): no
reply; the four bytes are searched again from HUNT, so that a sync pattern among them is found. None changes anything
else. -/
def Obligations.LinkChecks : Prop :=
  (∀ (kind tag : Byte) (body : List Byte) (crc : Crc) (s : State), Reads s → plausible kind body.length = true →
    (crc ≠ frameCrc kind tag body →
      exec (.frameRejected kind tag body crc) s = .next (replied kind tag .badCrc [] s)) ∧
    (crc = frameCrc kind tag body → kindLength kind.toNat = none →
      exec (.frameRejected kind tag body crc) s = .next (replied kind tag .unknownKind [] s)) ∧
    (∀ l, crc = frameCrc kind tag body → kindLength kind.toNat = some l → l.allows body = false →
      exec (.frameRejected kind tag body crc) s = .next (replied kind tag .badLength [] s))) ∧
  (∀ (kind tag : Byte) (body : List Byte) (crc : Crc) (s : State), Reads s → body.length < 65536 →
    plausible kind body.length = false →
    (0xA5 : Byte) ∉ [kind, tag] ++ be 2 body.length ++ body ++ be 2 crc.toNat →
    exec (.frameRejected kind tag body crc) s = .next { s with lnk := { s.lnk with parser := .hunt } }) ∧
  (∀ (kind tag hi lo : Byte) (s : State), Reads s → plausible kind (hi.toNat * 256 + lo.toNat) = false →
    ∃ p, exec (.implausibleHeader kind tag hi lo) s = .next { s with lnk := { s.lnk with parser := p } } ∧
      p = if kind = 0xA5 ∧ tag = 0x3C then .header [hi, lo]
          else if tag = 0xA5 ∧ hi = 0x3C then .header [lo]
          else if hi = 0xA5 ∧ lo = 0x3C then .header []
          else if lo = 0xA5 then .sync else .hunt)

/-- The order body, field by field (R231). -/
def orderContent (o : Order) : List Byte :=
  be 4 o.id ++ be 1 o.priority.code ++ be 1 o.state.code ++ [flagByte o.withdrawn] ++ be 1 (o.bin.getD 0) ++
  [flagByte o.split] ++ be 1 o.counts.waitImage ++ be 1 o.counts.queued ++ be 1 o.counts.inLine ++
  be 1 o.counts.done ++ be 1 o.counts.failed ++ be 1 o.items.length ++ o.items.flatMap fun i =>
    be 8 i.sku ++ be 4 i.image ++ be 1 i.profile ++ be 1 i.quantity ++ be 1 i.reprints

/-- The image body without its cell grid, field by field (R231): the coverage fields are 0 while there is none. -/
def imageContent (i : Image) : List Byte :=
  be 4 i.id ++ be 2 i.w ++ be 2 i.h ++ be 2 i.x0 ++ be 2 i.y0 ++ be 1 i.channels.toNat ++ [flagByte i.rush] ++
  be 1 i.state.code ++ [flagByte i.removed] ++ be 1 ((i.h + 47) / 48) ++
  be 2 (i.planes.countP fun p => p != .blank && p != .lost) ++ be 2 (i.planes.count .blank) ++
  be 2 (i.planes.count .lost) ++ be 2 i.queuedRefs ++ be 1 i.garmentRefs ++ [flagByte i.printActive] ++
  match i.coverage with
  | none => List.replicate 29 0x00
  | some c => [0x01] ++ c.units.flatMap (be 4) ++ be 4 c.units.sum ++ be 4 (c.units.sum / 1024)

/-- The cell grid of an image, lane-major (R231): 832 bytes of 0 while there is no coverage record. -/
def gridContent (i : Image) : List Byte :=
  match i.coverage with
  | none => List.replicate 832 0x00
  | some c => c.cells.flatMap fun x => be 4 x.white ++ be 4 x.colour

/-- A profile, field by field (R54, R227). -/
def profileContent (p : Profile) : List Byte :=
  be 1 p.basis.code ++ be 2 p.pFloor ++ be 2 p.tBase ++ be 2 p.tGain ++ be 2 p.tMin ++ be 2 p.tMax ++
  be 1 p.dwell ++ be 2 p.tfMin ++ be 2 p.tfMax ++ be 2 p.lineLimit ++ be 4 p.dotLimit ++ [flagByte p.markOn] ++
  be 2 p.markX ++ be 2 p.markY ++ be 2 p.tTh ++ be 4 p.dBase ++ be 1 p.kInk ++ be 4 p.dMax

/-- The garment body of serial `n`, field by field (R232), with the image id bytes `x` where the id is absent (log entry
43). -/
def garmentContent (n : Nat) (g : Garment) (x : BitVec 32) : List Byte :=
  be 2 n ++ be 4 g.order ++ be 1 g.item ++ be 1 g.index ++ be 8 g.sku ++
  (match g.image with
   | none => [0x00] ++ be 4 x.toNat
   | some id => [0x01] ++ be 4 id) ++
  profileContent g.profile ++ be 1 g.stage.code ++
  (match g.location with
   | .absent => be 1 0 ++ be 2 0
   | .platen k => be 1 1 ++ be 2 k
   | .belt mm => be 1 2 ++ be 2 mm
   | .recure => be 1 3 ++ be 2 0) ++
  be 1 g.defects.length ++ g.defects.flatMap (fun d => be 1 d.code) ++
  be 1 g.warnings.length ++ g.warnings.flatMap (fun w => be 1 w.code) ++ be 2 g.dose ++ be 1 g.dwell ++
  be 1 g.strokes.length ++ g.strokes.flatMap (fun r =>
    be 1 r.number ++ be 2 r.first ++ be 2 r.last ++ be 1 r.framing ++ be 2 r.skipped ++ be 2 r.blanked ++
    be 4 r.lostDots ++ be 4 r.tickles ++ be 1 r.framer.code ++ [flagByte r.aborted]) ++
  be 4 g.d ++ be 4 g.dReq ++ be 4 g.dMax ++ be 1 g.recures ++ be 1 (verificationCode g.verification) ++
  be 1 (outcomeCode g.outcome) ++ be 1 (routeCode g.route)

/-- The alarm body of instance `i`, which is `number` of kind `kind`, field by field (R232). -/
def alarmContent (kind number i : Nat) (s : State) : List Byte :=
  be 1 kind ++ be 1 number ++ be 1 (alarm i s).state.code ++ [flagByte (alarm i s).present] ++
  [flagByte (alarm i s).acked] ++ be 1 (alarm i s).count ++ [flagByte (alarm i s).simulated] ++ be 1 (senseAt i s).code

/-- The transmitter (R218, R220): with the slot empty it takes the head of the notice list and builds its frame from the
object as it stands; a reply in the slot goes first. REPLY_READ empties the slot and lets it choose again. LINE_NOTICE,
BIN_NOTICE and ALARM_NOTICE, and the notices of an order, an image and a garment, field by field (R231, R232). Each sent
frame goes out in full packets and ends with a short one, of no bytes where the length is a whole number of packets
(R212). The model's choice: a field is as wide as its value needs (log entry 20), a packet has 512 bytes (log entry 36),
the image id bytes of a garment without an image id are a free value (log entry 43). -/
def Obligations.TransmitterChooses : Prop :=
  (∀ (s : State) (r : Ref) (rest : List Ref) (f : Frame) (last : Bool), Reads s → s.lnk.tx = .idle →
    s.lnk.notices = r :: rest → buildNotice r s = some (f, last) →
    exec .noticeSendStart s = .next { s with lnk := { s.lnk with
      tx := .sendingNotice, sending := some { ref := r, final := last, frame := f }, notices := rest } }) ∧
  (∀ (s : State) (f : Frame), s.lnk.configured = true → s.lnk.tx = .idle → s.lnk.reply = some f →
    exec .noticeSendStart s = .next { s with lnk := { s.lnk with tx := .sendingReply } }) ∧
  (∀ s : State, s.lnk.tx ≠ .idle ∨ s.lnk.configured = false → exec .noticeSendStart s = .next s) ∧
  (∀ s : State, s.lnk.tx = .sendingReply → s.lnk.pipe = [] →
    ∃ t, exec .replyRead s = .next t ∧ Sent { s with lnk := { s.lnk with reply := none, tx := .idle } } t) ∧
  (∀ (s : State) (kind number i : Nat) (line bin : List Byte),
    line = be 1 s.car.line.code ++ be 1 s.car.load.hold.code ++ be 1 s.car.pretreat.hold.code ++
      be 1 s.car.flash.hold.code ++ be 1 s.car.print.hold.code ++ be 1 s.car.unload.hold.code ++ be 1 s.car.lamp.code ++
      be 1 s.exs.lamp.code ++ be 1 (scanCode s.car.lastScan) ++ be 2 s.exs.foreign ++ be 2 s.exs.unknown →
    bin = be 1 number ++ be 1 (binAt number s).state.code ++ be 4 ((binAt number s).order.getD 0) ++
      be 1 (binAt number s).count →
    buildNotice .line s = some ({ kind := 0xE5, tag := 0x00, body := line }, false) ∧
    buildNotice (.bin number) s = some ({ kind := 0xE3, tag := 0x00, body := bin }, false) ∧
    (alarmIndex kind number = some i →
      buildNotice (.alarm i) s = some ({ kind := 0xE4, tag := 0x00, body := alarmContent kind number i s }, false)) ∧
    (∀ o, tabGet i s.ord.orders = some o →
      buildNotice (.order i) s = some ({ kind := 0xE0, tag := 0x00, body := orderContent o }, o.withdrawn)) ∧
    (∀ m, tabGet i s.ims.images = some m →
      buildNotice (.image i) s = some ({ kind := 0xE1, tag := 0x00, body := imageContent m }, m.removed)) ∧
    ∀ g, garment i s = some g → ∃ x : BitVec 32, buildNotice (.garment i) s =
      some ({ kind := 0xE2, tag := 0x00, body := garmentContent i g x }, g.stage == .sorted)) ∧
  ∀ s : State,
    (∀ f, (s.lnk.tx = .sendingReply ∧ s.lnk.reply = some f) ∨
        (s.lnk.tx = .sendingNotice ∧ ∃ k, s.lnk.sending = some k ∧ k.frame = f) →
      (bulkIn s).flatten = frameBytes f ∧
      ∃ (full : List (List Byte)) (last : List Byte), bulkIn s = full ++ [last] ∧ (∀ p ∈ full, p.length = 512) ∧
        last.length < 512) ∧
    (s.lnk.tx = .idle → bulkIn s = [])

/-- NOTICE_SENT (R220): the sending report of a withdrawn order empties its slot (R20), of a removed image its slot
(R44), and of a SORTED garment frees its record (R87); any other notice, and one whose object an accepted RESET has
dropped meanwhile, changes no object. -/
def Obligations.SendingReports : Prop :=
  ∀ (s : State) (k : Sending), s.lnk.tx = .sendingNotice → s.lnk.sending = some k →
    ∃ t, exec .noticeSent s = .next t ∧
      Sent (match k.final, k.ref with
        | true, .order slot => { s with
            lnk := { s.lnk with tx := .idle, sending := none },
            ord := { s.ord with orders := s.ord.orders.filter fun p => p.1 != slot } }
        | true, .image slot => { s with
            lnk := { s.lnk with tx := .idle, sending := none },
            ims := { s.ims with images := s.ims.images.filter fun p => p.1 != slot } }
        | true, .garment n => { s with
            lnk := { s.lnk with tx := .idle, sending := none },
            car := { s.car with garments := s.car.garments.filter fun p => p.1 != n } }
        | _, _ => { s with lnk := { s.lnk with tx := .idle, sending := none } }) t

/-- USB_BUS_RESET (R222) drops what the link holds, and puts the reference of an abandoned notice at the back of the
list where it is absent; USB_CONFIGURED, with no byte in the pipe, lets sending go on. Neither changes anything else.
The model's choice: bytes in the pipe stay there (log entry 6). -/
def Obligations.LinkInterruptions : Prop :=
  (∀ s : State, exec .usbBusReset s = .next { s with lnk := {
      configured := false, pipe := s.lnk.pipe, parser := .hunt, reply := none, tx := .idle, sending := none,
      notices := match s.lnk.sending with
        | some k => if k.ref ∈ s.lnk.notices then s.lnk.notices else s.lnk.notices ++ [k.ref]
        | none => s.lnk.notices } }) ∧
  ∀ s : State, s.lnk.pipe = [] →
    ∃ t, exec .usbConfigured s = .next t ∧ Sent { s with lnk := { s.lnk with configured := true } } t

/-- The pipe (R212, R214, R216). While the part reads no byte, a command's bytes join the pipe and nothing else changes;
where it reads but not between two frames, they join what it reads. With the slot empty again, or the function
configured, the part takes the first frame held, as it would at its own event; and at no step does it leave a byte
unread that it may read. The model's choice: at REPLY_READ and at USB_CONFIGURED the transmitter chooses before the part
reads (log entry 6); a whole frame that comes between two frames is taken at once (log entry 14). -/
def Obligations.FramesHeldBack : Prop :=
  (∀ (c : Instr) (s : State), streamBytes c ≠ [] → s.lnk.configured = false ∨ s.lnk.reply ≠ none →
    exec c s = .next { s with lnk := { s.lnk with pipe := s.lnk.pipe ++ [chunkOf c] } }) ∧
  (∀ (c : Instr) (s : State), streamBytes c ≠ [] → s.lnk.configured = true → s.lnk.reply = none → ¬ Reads s →
    exec c s = .next (readPipe { s with lnk := { s.lnk with pipe := s.lnk.pipe ++ [chunkOf c] } })) ∧
  (∀ (c : Instr) (s u t : State) (rest : List Chunk), c.wf = true → (bodyOf c).isSome = true →
    (∀ k g b r, c = .frameRejected k g b r → Answered { kind := k, tag := g, body := b, crc := r }) →
    s.lnk.pipe = chunkOf c :: rest → s.lnk.parser = .hunt →
    (s.lnk.tx = .sendingReply → s.lnk.configured = true →
      exec .replyRead { s with lnk := { s.lnk with pipe := [] } } = .next u → exec c u = .next t →
      exec .replyRead s = .next { t with lnk := { t.lnk with pipe := rest } }) ∧
    (s.lnk.reply = none → exec .usbConfigured { s with lnk := { s.lnk with pipe := [] } } = .next u →
      exec c u = .next t → exec .usbConfigured s = .next { t with lnk := { t.lnk with pipe := rest } })) ∧
  (∀ (c : Instr) (kind tag : Byte) (body : List Byte), bodyOf c = some (kind, tag, body) →
    (∀ k t b r, c ≠ .frameRejected k t b r) →
    streamBytes c = frameBytes { kind := kind, tag := tag, body := body }) ∧
  ∀ s t : State, PipeDrained s → step s = .next t → PipeDrained t

/-- IDENT (R223, R227): answered OK with the identification, and nothing else changes. The model's choice: each capacity
has the width of its own value (log entry 20). -/
def Obligations.IdentAnswers : Prop :=
  ∀ (tag : Byte) (s : State), Reads s → exec (.ident tag) s = .next (replied 0x01 tag .ok
    ([0x4F, 0x52, 0x4D, 0x54, 0x44, 0x47, 0x2D, 0x38, 0x41] ++
      be 1 128 ++ be 2 1024 ++ be 1 64 ++ be 2 8192 ++ be 1 32 ++ be 1 12 ++ be 1 8 ++ be 1 24 ++ be 1 16 ++
      be 1 22 ++ be 2 271 ++ be 2 60000) s)

/-- The content of the STATUS_GET reply, field by field in the order of R224: LNK, ORD, IMS, CAR, PTR, SHF, FDP, CTC,
EXS and ALM. `x` is the shuttle position as it is sent. -/
def statusContent (s : State) (x : BitVec 16) : List Byte :=
  let dose : Nat → (Garment → Nat) → List Byte := fun n f => be 4 (((garment n s).map f).getD 0)
  let notIdle : List Nat → List Byte := fun l => be 1 (l.countP fun i => (alarm i s).state != .idle)
  let warm : Bool := s.car.line == .running || s.car.line == .draining || s.car.line == .stopped
  be 2 s.lnk.notices.length ++
  be 1 (s.ord.orders.countP fun p => !p.2.withdrawn) ++ be 1 (s.ord.orders.countP fun p => p.2.withdrawn) ++
  be 2 (1024 - s.ord.units.length) ++ be 2 s.ord.queue.length ++ be 4 s.ord.seq ++
  be 2 (freeOrdinary s).length ++ be 2 (freeReserve s).length ++ be 2 s.ims.retired.length ++ be 2 s.ims.corrected ++
  be 1 s.car.line.code ++
  s.car.platens.flatMap (fun p => be 1 p.number ++ match p.contents with
    | .empty => be 1 0 ++ be 2 0
    | .unknown => be 1 1 ++ be 2 0
    | .garment n => be 1 2 ++ be 2 n) ++
  [s.car.load, s.car.pretreat, s.car.flash, s.car.print, s.car.unload].flatMap
    (fun r => be 1 (if r.working then 0 else 1) ++ be 1 r.hold.code) ++
  be 1 s.car.index.code ++
  be 2 (min 3000 ((s.car.indexRun + if s.car.index = .moving then s.clock - s.car.indexFrom else 0) / 1000)) ++
  be 1 s.car.transfer.code ++ be 1 s.car.garments.length ++ be 2 s.car.lastSerial ++
  be 8 s.ptr.tank ++ be 1 s.ptr.bar.code ++ be 1 s.ptr.job.code ++ be 2 s.ptr.flashReading ++
  [flagByte s.ptr.flashFaulted, flagByte s.ptr.pressClosed] ++ be 2 ((s.ptr.target.map Prod.fst).getD 0) ++
  be 2 ((s.ptr.target.map Prod.snd).getD 0) ++ be 1 s.ptr.flashJob.code ++
  be 1 s.shf.shuttle.code ++ be 2 x.toNat ++ be 1 s.shf.job.code ++ be 1 s.shf.stroke ++ be 1 s.shf.framer.code ++
  be 1 s.shf.framing ++ be 2 s.shf.skipped ++ be 2 s.shf.blanked ++
  (List.range 5).flatMap (fun c => be 2 (uncovered c s.fdp.nozzles)) ++ be 1 s.fdp.spitCounter ++ be 1 s.prf.spit.period ++
  be 4 ((s.fdp.stroke.map Stroke.lostDots).getD 0) ++ be 4 ((s.fdp.stroke.map Stroke.tickles).getD 0) ++
  be 2 ((s.fdp.stroke.map fun k => k.lost.length).getD 0) ++
  (List.range 3).flatMap (fun z => be 2 (zoneAt z s).reading ++ [flagByte (zoneAt z s).faulted] ++
    be 2 (zoneAt z s).duty ++ be 2 ((s.prf.cure.tSet[z]?).getD 0) ++ be 1 (zoneAt z s).tripBegin ++
    be 1 (zoneAt z s).tripEnd ++ be 1 (zoneAt z s).lowBegin ++ be 1 (zoneAt z s).lowEnd) ++
  be 2 s.ctc.selected ++ be 2 (if warm then s.ctc.selected else 0) ++ [flagByte s.ctc.gateHeld] ++
  be 2 (s.ctc.unloadClaim.getD 0) ++ be 2 (s.ctc.refeedClaim.getD 0) ++ be 2 (s.ctc.entrant.getD 0) ++
  be 1 s.ctc.tunnel.length ++ s.ctc.tunnel.flatMap (fun r => be 2 r.serial ++ be 2 (r.travel / 10) ++
    dose r.serial Garment.d ++ dose r.serial Garment.dReq ++ dose r.serial Garment.dMax) ++
  (let held : (Garment → Nat) → List Byte := fun f => be 4 (((s.ctc.entrant.bind fun n => garment n s).map f).getD 0)
   be 2 (s.ctc.entrant.getD 0) ++ be 2 0 ++ held Garment.d ++ held Garment.dReq ++ held Garment.dMax) ++
  (let window := s.ctc.tunnel.takeWhile fun r => !decide (r.travel / 10 < 3000)
   be 1 window.length ++ window.flatMap fun r => be 2 r.serial ++ be 2 (r.travel / 10) ++
     be 1 (((garment r.serial s).map fun g => outcomeCode g.outcome).getD 0) ++
     be 1 (((garment r.serial s).map fun g => verificationCode g.verification).getD 0)) ++
  be 1 s.exs.recure.length ++ s.exs.recure.flatMap (fun n => be 2 n ++ dose n Garment.d) ++
  be 2 (s.ctc.refeedClaim.getD 0) ++ be 1 s.exs.reason.code ++ be 1 s.exs.lamp.code ++ be 1 s.exs.diverter.code ++
  be 2 s.exs.foreign ++ be 2 s.exs.unknown ++ be 2 s.exs.malformed ++
  s.exs.bins.zipIdx.flatMap (fun p => be 1 (p.2 + 1) ++ be 1 p.1.state.code ++ be 4 (p.1.order.getD 0) ++
    be 1 p.1.count) ++ be 1 s.prf.line.bins ++
  notIdle [0, 2, 16] ++ notIdle [1, 3, 4, 6] ++ notIdle [5, 7, 8, 9, 10, 11, 12, 13, 14, 15, 17, 18, 19, 20, 21] ++
  be 1 s.alm.drill ++ [flagByte s.pins.estop] ++ (List.range 4).map (fun n => flagByte (s.pins.guards.getLsbD n)) ++
  be 1 s.prf.line.guardMask.toNat ++ [flagByte (alarm 1 s).present]

/-- The content of the CONFIG_GET reply (R230): the 67 entries in code order and within a code in index order, and the
cure and the spit settings as R227 lays them out. -/
def configContent (p : Prf) : List Byte :=
  let l := p.line
  let entry : Nat → Nat → Nat → List Byte := fun code index v => be 1 code ++ be 1 index ++ be 4 v
  let each : Nat → Nat → List Nat → List Byte := fun code first vs =>
    vs.zipIdx.flatMap fun v => entry code (first + v.2) v.1
  be 2 67 ++ entry 0x01 0 l.lineId ++ entry 0x02 0 l.reprintLimit ++ entry 0x03 0 l.recureLimit ++
  entry 0x04 0 l.reserve.code ++ entry 0x05 0 l.lossRule.code ++ entry 0x06 0 l.markTol ++
  entry 0x07 0 l.autoResync.toNat ++ entry 0x08 0 l.shuttleSpeed ++ entry 0x09 0 l.tickle ++
  (List.range 5).flatMap (fun c => entry 0x0A c
    ((List.range 24).map fun m => if l.exempt.getLsbD (24 * c + m) = true then 2 ^ m else 0).sum) ++
  entry 0x0B 0 l.barSpeed ++ entry 0x0C 0 l.laneMult ++ each 0x0D 0 l.laneDelays ++ entry 0x0E 0 l.flow ++
  entry 0x0F 0 l.tankCap ++ entry 0x10 0 l.tankReserve ++ entry 0x11 0 l.flashWait ++ entry 0x12 0 l.bins ++
  entry 0x13 0 l.guardMask.toNat ++ each 0x14 1 (l.senses.map Sense.code) ++ each 0x15 0 (l.masks.map Bool.toNat) ++
  entry 0x16 0 l.lock.toNat ++
  p.cure.tSet.flatMap (be 2) ++ be 2 p.cure.tTrip ++ be 2 p.cure.band ++ be 1 p.cure.samples ++ be 1 p.cure.gain ++
  be 2 p.cure.dMin ++ be 2 p.cure.dMax ++ be 2 p.cure.sMin ++ be 2 p.cure.sMax ++
  be 1 p.spit.period ++ p.spit.masks.flatMap (fun m => be 2 m.toNat) ++ p.spit.counts.flatMap (be 1)

/-- The content of the NOZZLE_GET reply (R127): the state of each nozzle of the row in position order, and how many of
them are OK, WEAK and DEAD. -/
def nozzleContent (c r : Nat) (s : State) : List Byte :=
  let state : Nat → Nat := fun x => nozzleCode (nozzleState s.fdp.nozzles (9600 * c + 4800 * r + x))
  (List.range 4800).flatMap (fun x => be 1 (state x)) ++
  [0, 1, 2].flatMap fun k => be 2 ((List.range 4800).countP fun x => state x == k)

/-- The queries (R23, R48, R63, R88, R127, R203, R224) are answered OK with the figures as they stand, each content
field by field (R230 to R232), or NOT_FOUND, or RANGE, and change nothing else. The model's choice: a field is as wide
as its value needs, and the entrant goes as a serial after the two claims and with its five fields after the tunnel list
(log entry 20); a shuttle position outside 16 bits, and the image id bytes of a garment without an image id, are sent as
free values (log entries 12, 43). -/
def Obligations.Queries : Prop :=
  ((∀ (tag : Byte) (s : State), Reads s → ∃ x : BitVec 16,
    exec (.statusGet tag) s = .next (replied 0x02 tag .ok (statusContent s x) s) ∧
    (0 ≤ s.shf.pos → s.shf.pos < 65536 → (x.toNat : Int) = s.shf.pos)) ∧
  ∀ (tag : Byte) (s : State), Reads s → Shaped s →
    exec (.configGet tag) s = .next (replied 0x11 tag .ok (configContent s.prf) s)) ∧
  (∀ (tag : Byte) (s : State), Reads s →
    (∀ id o, orderOf id s = some o →
      exec (.orderGet tag id) s = .next (replied 0x33 tag .ok (orderContent o.2) s)) ∧
    (∀ id, orderOf id s = none → exec (.orderGet tag id) s = .next (replied 0x33 tag .notFound [] s)) ∧
    (∀ id i, imageOf id s = some i →
      exec (.imageGet tag id) s = .next (replied 0x25 tag .ok (imageContent i.2 ++ gridContent i.2) s)) ∧
    (∀ id, imageOf id s = none → exec (.imageGet tag id) s = .next (replied 0x25 tag .notFound [] s)) ∧
    (∀ n g, garment n s = some g → ∃ x : BitVec 32,
      exec (.garmentGet tag n) s = .next (replied 0x38 tag .ok (garmentContent n g x) s)) ∧
    (∀ n, garment n s = none → exec (.garmentGet tag n) s = .next (replied 0x38 tag .notFound [] s)) ∧
    (∀ c r, c < 5 → r < 2 → exec (.nozzleGet tag c r) s = .next (replied 0x17 tag .ok (nozzleContent c r s) s)) ∧
    (∀ c r, 5 ≤ c ∨ 2 ≤ r → exec (.nozzleGet tag c r) s = .next (replied 0x17 tag .range [] s)) ∧
    (∀ k n i, alarmIndex k n = some i → exec (.alarmGet tag k n) s =
      .next (replied 0x50 tag .ok (alarmContent k n i s ++ [flagByte (masked i s)]) s)) ∧
    (∀ k n, alarmIndex k n = none → exec (.alarmGet tag k n) s = .next (replied 0x50 tag .range [] s)))

/-- PROFILE_GET (R54): an id of 0 to 15 is answered OK with every field of that profile, an id above 15 is refused
RANGE, in every state of lock, KEY and line; nothing else changes. -/
def Obligations.ProfileGetAnswers : Prop :=
  ∀ (tag : Byte) (id : Nat) (s : State), Reads s → Shaped s →
    (∀ h : id < s.prf.profiles.length, exec (.profileGet tag id) s = .next (replied 0x13 tag .ok
      (profileContent s.prf.profiles[id]) s)) ∧
    (id ≤ 15 ↔ id < s.prf.profiles.length) ∧
    (15 < id → exec (.profileGet tag id) s = .next (replied 0x13 tag .range [] s))

/-- POWER_ON (R211, R226): every block takes its power-on state, and ALM judges e-stop and the enabled guards; with
e-stop inactive and every guard high nothing is found, and otherwise the onsets of the first reading are appended, ESTOP
before GUARD. The model's choice, and not the spec's: the queue and the level of KEY stay (log entry 1); every byte of
the store reads 0 until it is written, where R24 leaves it undefined (log entry 4); the pipe is emptied (log entry 6);
ESTOP's reference comes before GUARD's (log entry 11); and the values of State.reset that the spec does not state, the
readings of the temperature sensors before the first sample (log entry 19) and the fields that mean something only while
a motion, a stroke or a wait runs (log entry 29). -/
def Obligations.PowerOn : Prop :=
  ∀ (s : State) (estop : Bool) (guards : BitVec 4), ∃ t, exec (.powerOn estop guards) s = .next t ∧
    t = { State.reset with
      pins := { estop := estop, guards := guards, key := s.pins.key }, pending := s.pending, alm := t.alm,
      lnk := { State.reset.lnk with notices :=
        (if estop then [Ref.alarm 0] else []) ++ if guards = 15 then [] else [Ref.alarm 1] } } ∧
    (∀ i, alarm i t =
      if (i = 0 ∧ estop = true) ∨ (i = 1 ∧ guards ≠ 15) then
        { state := .active, present := true, acked := false, count := 1, simulated := false }
      else { state := .idle, present := false, acked := false, count := 0, simulated := false }) ∧
    t.alm.drill = 0 ∧ t.alm.load = .powerOn ∧ t.alm.entry = .powerOn ∧ t.alm.exit = .powerOn

/-- RESET (R225): refused STATE unless the line is IDLE or STOPPED and the tunnel and recure lists are empty; else
production state is cleared as each chapter gives, settings, profiles, nozzle map, retired pages, platens, station
states, tank estimate, press and target window are kept, and the line reference comes first on the emptied list. The
model's choice: where a halt-class condition is found at once, the order of the references after the line's (log entry
11). -/
def Obligations.ResetClears : Prop :=
  ∀ (tag : Byte) (s : State), Reads s →
    ((¬(s.car.line = .idle ∨ s.car.line = .stopped) ∨ s.ctc.tunnel ≠ [] ∨ s.exs.recure ≠ []) →
      exec (.reset tag) s = .next (replied 0x03 tag .state [] s)) ∧
    (s.car.line = .idle ∨ s.car.line = .stopped → s.ctc.tunnel = [] → s.exs.recure = [] → ∃ t, exec (.reset tag) s = .next t ∧
        t.lnk.reply = some { kind := 0x83, tag := tag, body := [0x00] } ∧ t.lnk.parser = .hunt ∧
        t.lnk.notices = (if s.car.line = .stopped then [.line] else []) ++
          (if s.pins.estop = true ∧ masked 0 s = false then [.alarm 0] else []) ++
          (if s.prf.line.guardMask &&& ~~~s.pins.guards ≠ 0 ∧ masked 1 s = false then [.alarm 1] else []) ∧
        (∀ k, t.lnk.sending = some k → k.final = false) ∧ t.lnk.configured = true ∧
        t.ord = .powerOn ∧ t.prf = s.prf ∧ t.pins = s.pins ∧ t.clock = s.clock ∧ t.pending = s.pending ∧
        t.ims = { s.ims with images := [], scanQueue := [], scan := none, corrected := 0 } ∧
        t.car.line = .idle ∧ t.car.garments = [] ∧ t.car.lastSerial = 0 ∧ t.car.index = .none ∧
        t.car.transfer = .none ∧ t.car.lamp = .off ∧ t.car.lastScan = none ∧ t.car.refused = false ∧
        t.car.platens = s.car.platens ∧
        (∀ st, station st t = { station st s with hold := .none }) ∧
        t.ptr.tank = s.ptr.tank ∧ t.ptr.bar = s.ptr.bar ∧ t.ptr.pressClosed = s.ptr.pressClosed ∧
        t.ptr.target = s.ptr.target ∧ t.ptr.flashReading = s.ptr.flashReading ∧ t.ptr.job = .none ∧
        t.ptr.flashJob = .none ∧ t.ptr.schedule = none ∧
        t.shf.shuttle = (if s.shf.shuttle = .stopped then .homing else s.shf.shuttle) ∧ t.shf.job = .none ∧
        t.shf.framer = .acquire ∧ t.shf.stroke = 0 ∧ t.shf.framing = 0 ∧ t.shf.skipped = 0 ∧ t.shf.blanked = 0 ∧
        t.fdp.nozzles = s.fdp.nozzles ∧ t.fdp.spitCounter = s.fdp.spitCounter ∧ t.fdp.stroke = none ∧
        t.ctc.selected = s.prf.cure.sMax ∧ t.ctc.sampleCount = s.ctc.sampleCount ∧ t.ctc.tunnel = [] ∧
        t.ctc.gateHeld = false ∧ t.ctc.unloadClaim = none ∧ t.ctc.refeedClaim = none ∧ t.ctc.entrant = none ∧
        t.ctc.zones.map (fun z => (z.reading, z.faulted)) = s.ctc.zones.map (fun z => (z.reading, z.faulted)) ∧
        (∀ z ∈ t.ctc.zones, z.duty = 0 ∧ z.tripBegin = 0 ∧ z.tripEnd = 0 ∧ z.lowBegin = 0 ∧ z.lowEnd = 0) ∧
        t.exs = .powerOn ∧ t.alm.drill = 0 ∧ t.alm.load = .powerOn ∧ t.alm.entry = .powerOn ∧ t.alm.exit = .powerOn ∧
        ∀ i, alarm i t =
          if (i = 0 ∧ s.pins.estop = true) ∨ (i = 1 ∧ s.prf.line.guardMask &&& ~~~s.pins.guards ≠ 0) then
            { state := .active, present := true, acked := false, count := 1, simulated := false }
          else { state := .idle, present := false, acked := false, count := 0, simulated := false })

/-! ## Orders -/

/-- What an ORDER_ADD names outside its ranges (R4 check 2). -/
def BadOrder (id priority : Nat) (items : List ItemBody) : Prop :=
  id = 0 ∨ 2 ≤ priority ∨ items = [] ∨ 8 < items.length ∨ 16 < (items.map ItemBody.quantity).sum ∨
  ∃ i ∈ items, i.quantity = 0 ∨ 16 < i.quantity ∨ 999999999999 < i.sku ∨ 15 < i.profile

/-- The units that an ORDER_ADD makes QUEUED, or WAIT_IMAGE: those of items whose image is READY, or is not (R5). -/
def unitsReady (ready : Bool) (items : List ItemBody) (s : State) : Nat :=
  ((items.filter fun i => imageReady i.image s == ready).map ItemBody.quantity).sum

/-- ORDER_ADD is refused by the first check of R4 that fails, in its order, and then changes nothing else. An accepted
one (R5): an OPEN record with no bin fills an empty slot, one unit is created for each of each item's quantity, QUEUED
where the item's image is READY and WAIT_IMAGE elsewhere, in the class of the priority. In item order, and within an
item in unit index order, the counter advances for each unit past every value that a unit record holds, and the unit
takes the value reached; the counter then stands at the last one (R3). The pick queue gains one entry for each QUEUED
unit (R7) and their images one reference each (R10); every other order and unit, and every other block, stays as it was.
-/
def Obligations.OrderAdd : Prop :=
  (∀ (tag : Byte) (id priority : Nat) (items : List ItemBody) (s : State), Reads s →
    ((orderOf id s).isSome = true → exec (.orderAdd tag id priority items) s = .next (replied 0x30 tag .exists_ [] s)) ∧
    (orderOf id s = none → BadOrder id priority items →
      exec (.orderAdd tag id priority items) s = .next (replied 0x30 tag .range [] s)) ∧
    (orderOf id s = none → ¬ BadOrder id priority items →
      (∀ k < 128, (tabGet k s.ord.orders).isSome = true) ∨
        1024 - s.ord.units.length < (items.map ItemBody.quantity).sum →
      exec (.orderAdd tag id priority items) s = .next (replied 0x30 tag .full [] s))) ∧
  (∀ (tag : Byte) (id priority : Nat) (items : List ItemBody) (s : State), Reads s → orderOf id s = none →
    ¬ BadOrder id priority items → (∃ k < 128, tabGet k s.ord.orders = none) →
    s.ord.units.length + (items.map ItemBody.quantity).sum ≤ 1024 →
    ∃ t slot, exec (.orderAdd tag id priority items) s = .next t ∧
      tabGet slot s.ord.orders = none ∧ slot < 128 ∧
      tabGet slot t.ord.orders = some {
        id := id, priority := if priority = 1 then .rush else .normal, state := .open_,
        items := items.map fun i =>
          { sku := i.sku, image := i.image, profile := i.profile, quantity := i.quantity, reprints := 0 },
        bin := none, split := false, withdrawn := false,
        counts := { waitImage := unitsReady false items s, queued := unitsReady true items s, inLine := 0, done := 0,
                    failed := 0 } } ∧
      (∀ k, k ≠ slot → tabGet k t.ord.orders = tabGet k s.ord.orders) ∧
      (let places : List (Nat × Nat) := items.zipIdx.flatMap fun p => (List.range p.1.quantity).map fun k => (p.2, k)
       ∃ seqs : List Nat, seqs.length = places.length ∧
        (∀ (m j k : Nat) (i : ItemBody), places[m]? = some (j, k) → items[j]? = some i → ∃ q, seqs[m]? = some q ∧
          tabGet q s.ord.units = none ∧ tabGet q t.ord.units = some {
            slot := slot, item := j, index := k,
            cls := if priority = 1 then .rush else .normal,
            state := if imageReady i.image s then .queued else .waitImage }) ∧
        (∀ m before q : Nat, (s.ord.seq :: seqs)[m]? = some before → seqs[m]? = some q →
          let held : Nat → Prop := fun x => (tabGet x s.ord.units).isSome = true ∨ x ∈ seqs.take m
          ¬ held q ∧ ∃ d, 1 ≤ d ∧ q = (before + d) % 4294967296 ∧
            ∀ e, 1 ≤ e → e < d → held ((before + e) % 4294967296)) ∧
        (s.ord.seq :: seqs)[places.length]? = some t.ord.seq) ∧
      (∀ q u, tabGet q s.ord.units = some u → tabGet q t.ord.units = some u) ∧
      t.ord.units.length = s.ord.units.length + (items.map ItemBody.quantity).sum ∧
      t.ord.queue.length = s.ord.queue.length + unitsReady true items s ∧
      (∀ e, e ∈ t.ord.queue ↔ e ∈ s.ord.queue ∨ tabGet e.seq s.ord.units = none ∧
        ∃ u, tabGet e.seq t.ord.units = some u ∧ u.state = .queued ∧ u.cls = e.cls) ∧
      t.ims.images = s.ims.images.map (fun p => (p.1, { p.2 with queuedRefs := p.2.queuedRefs +
        ((items.filter fun i => imageReady i.image s && (imageOf i.image s).map Prod.fst == some p.1).map
          ItemBody.quantity).sum })) ∧
      t.lnk = (replied 0x30 tag .ok [] (noted (.order slot) s)).lnk ∧
      { t with lnk := s.lnk, ord := s.ord, ims := s.ims } = s ∧
      { t.ims with images := s.ims.images } = s.ims)

/-- ORDER_RUSH (R11): NOT_FOUND, STATE for a CANCELLING or COMPLETE order, else OK: the priority becomes RUSH, every
NORMAL unit of the order takes class RUSH whatever its state, REPRINT units keep theirs, the pick queue goes on holding
one entry for each QUEUED unit, with its class and in its place, and nothing else of any order or unit changes. -/
def Obligations.OrderRush : Prop :=
  ∀ (tag : Byte) (id : Nat) (s : State), Reads s →
    (orderOf id s = none → exec (.orderRush tag id) s = .next (replied 0x31 tag .notFound [] s)) ∧
    (∀ slot o, orderOf id s = some (slot, o) → o.state = .cancelling ∨ o.state = .complete →
      exec (.orderRush tag id) s = .next (replied 0x31 tag .state [] s)) ∧
    (∀ slot o, Keyed s → orderOf id s = some (slot, o) → o.state = .open_ ∨ o.state = .failed →
      ∃ t, exec (.orderRush tag id) s = .next t ∧
        tabGet slot t.ord.orders = some { o with priority := .rush } ∧
        (∀ k, k ≠ slot → tabGet k t.ord.orders = tabGet k s.ord.orders) ∧
        t.ord.units = s.ord.units.map (fun p =>
          (p.1, { p.2 with cls := if p.2.slot = slot ∧ p.2.cls = .normal then .rush else p.2.cls })) ∧
        (QueueHolds s → QueueHolds t) ∧ (QueueInOrder s → QueueInOrder t) ∧
        t.ord.seq = s.ord.seq ∧ t.lnk = (replied 0x31 tag .ok [] (noted (.order slot) s)).lnk ∧
        { t with lnk := s.lnk, ord := s.ord } = s)

/-- ORDER_CANCEL (R21): NOT_FOUND, STATE for a CANCELLING order, else OK: every QUEUED and WAIT_IMAGE unit is removed,
with its queue entry and its image reference (R7, R10). With IN_LINE units left the order becomes CANCELLING, and its
IN_LINE, DONE and FAILED units stay; with none it is withdrawn, its units return to the pool and a bin it holds becomes
FREE. Nothing else changes. The model's choice: the order is appended before the bin (log entry 11). -/
def Obligations.OrderCancel : Prop :=
  ∀ (tag : Byte) (id : Nat) (s : State), Reads s →
    (orderOf id s = none → exec (.orderCancel tag id) s = .next (replied 0x32 tag .notFound [] s)) ∧
    (∀ slot o, orderOf id s = some (slot, o) → o.state = .cancelling →
      exec (.orderCancel tag id) s = .next (replied 0x32 tag .state [] s)) ∧
    ∀ slot o, Keyed s → orderOf id s = some (slot, o) → o.state ≠ .cancelling →
      (o.counts.inLine ≠ 0 → exec (.orderCancel tag id) s = .next (replied 0x32 tag .ok [] (noted (.order slot)
        (let w := waitingRemoved slot s
         { w with ord := { w.ord with
           orders := tabMap slot (fun o => { o with state := .cancelling }) w.ord.orders } })))) ∧
      (o.counts.inLine = 0 → exec (.orderCancel tag id) s =
        .next (replied 0x32 tag .ok [] (cancelledAt slot o.bin (waitingRemoved slot s)))) ∧
      ∀ q u, u.slot = slot → (tabGet q (waitingRemoved slot s).ord.units = some u ↔
        tabGet q s.ord.units = some u ∧ u.state ≠ .queued ∧ u.state ≠ .waitImage)

/-- The sort reports (R15 to R17), for a unit found in an order that is not withdrawn: DONE makes the unit DONE; REPRINT
below the limit raises the item's reprint count and makes the unit REPRINT, QUEUED where its image is READY and
WAIT_IMAGE elsewhere, and at the limit FAILED; any report removes the unit of a CANCELLING order. For an IN_LINE unit
the whole state after the report: the counts of the order, the pick queue and the image references (R7, R10), an OPEN
order COMPLETE with its last DONE unit (R18), and its bin set COMPLETE, or the order retired where it has none (R20); a
CANCELLING order retired with its last IN_LINE unit, and its bin FREE (R17, R21). The model's choice: the order is
appended before the bin, at a completion and at a retirement (log entry 11); and a CANCELLING order is appended when a
unit leaves it (log entry 21). -/
def Obligations.SortReports : Prop :=
  ∀ (g : Garment) (s : State) (slot seq : Nat) (o : Order) (u : UnitRec) (it : Item), Keyed s →
    orderOf g.order s = some (slot, o) → unitSeq slot g.item g.index s = some seq →
    tabGet seq s.ord.units = some u → o.items[u.item]? = some it →
    (o.state = .cancelling → ∀ r, tabGet seq (sortReport r g s).ord.units = none) ∧
    (o.state ≠ .cancelling →
      (∀ v, tabGet seq (sortReport .done g s).ord.units = some v → v = { u with state := .done }) ∧
      (it.reprints < s.prf.line.reprintLimit →
        tabGet seq (sortReport .reprint g s).ord.units = some { u with
          cls := .reprint, state := if imageReady it.image s then .queued else .waitImage } ∧
        ∃ p, tabGet slot (sortReport .reprint g s).ord.orders = some p ∧ p.state = o.state ∧
          p.items = o.items.modify u.item fun i => { i with reprints := i.reprints + 1 }) ∧
      (s.prf.line.reprintLimit ≤ it.reprints →
        tabGet seq (sortReport .reprint g s).ord.units = some { u with state := .failed } ∧
        ∃ p, tabGet slot (sortReport .reprint g s).ord.orders = some p ∧ p.items = o.items ∧
          p.state = if o.state = .open_ then .failed else o.state)) ∧
    (u.state = .inLine →
      (o.state = .cancelling → ∀ r, sortReport r g s = unitLeft slot seq o s) ∧
      (o.state ≠ .cancelling →
        sortReport .done g s = unitDone slot seq o s ∧
        (it.reprints < s.prf.line.reprintLimit → sortReport .reprint g s =
          unitBack slot seq .reprint (imageReady it.image s) it.image
            (fun l => l.modify u.item fun i => { i with reprints := i.reprints + 1 }) s) ∧
        (s.prf.line.reprintLimit ≤ it.reprints → sortReport .reprint g s =
          unitChanged slot seq (fun v => { v with state := .failed }) (fun o => { o with
            state := if o.state = .open_ then .failed else o.state
            counts := { o.counts with inLine := o.counts.inLine - 1, failed := o.counts.failed + 1 } }) s)))

/-! ## Images -/

/-- IMAGE_OPEN is refused by the first check of R29 that fails, in its order, and then changes nothing else. An accepted
one (R30 to R32): the placement is clamped to keep the image on the platen and the reply is CLAMPED where that changed
it; an empty slot takes an OPEN record whose entries each hold, unsent, the next page of the supply; the image is
appended. The supply (R25, R31) holds the pages that no image in the table owns and that are not retired, ascending. The
model's choice: the empty slot taken is the lowest (log entry 5). -/
def Obligations.ImageOpen : Prop :=
  (∀ (tag : Byte) (id w h x y channels rush : Nat) (s : State), Reads s →
    ((openImage s).isSome = true →
      exec (.imageOpen tag id w h x y channels rush) s = .next (replied 0x20 tag .state [] s)) ∧
    (openImage s = none → (imageOf id s).isSome = true →
      exec (.imageOpen tag id w h x y channels rush) s = .next (replied 0x20 tag .exists_ [] s)) ∧
    (openImage s = none → imageOf id s = none →
      (w < 16 ∨ 4800 < w ∨ h < 16 ∨ 6240 < h ∨ channels = 0 ∨ 32 ≤ channels ∨ 2 ≤ rush) →
      exec (.imageOpen tag id w h x y channels rush) s = .next (replied 0x20 tag .range [] s)) ∧
    (openImage s = none → imageOf id s = none → 16 ≤ w → w ≤ 4800 → 16 ≤ h → h ≤ 6240 → 1 ≤ channels →
      channels < 32 → rush < 2 →
      (∀ k < 64, (tabGet k s.ims.images).isSome = true) ∨
        (pageSupply (rush == 1) s).length < (h + 47) / 48 * (channelsIn (BitVec.ofNat 5 channels)).length →
      exec (.imageOpen tag id w h x y channels rush) s = .next (replied 0x20 tag .full [] s))) ∧
  (∀ (tag : Byte) (id w h x y channels rush slot : Nat) (s : State), Reads s → openImage s = none →
    imageOf id s = none → 16 ≤ w → w ≤ 4800 → 16 ≤ h → h ≤ 6240 → 1 ≤ channels → channels < 32 → rush < 2 →
    freeKey 64 s.ims.images = some slot →
    (h + 47) / 48 * (channelsIn (BitVec.ofNat 5 channels)).length ≤ (pageSupply (rush == 1) s).length →
    exec (.imageOpen tag id w h x y channels rush) s =
      .next (replied 0x20 tag (acceptStatus (decide (4800 - w < x ∨ 6240 - h < y))) [] (noted (.image slot) { s with
        ims := { s.ims with
          images := tabSet slot
            { id := id, w := w, h := h, x0 := min x (4800 - w), y0 := min y (6240 - h),
              channels := BitVec.ofNat 5 channels, rush := rush == 1, state := .open_,
              planes := ((pageSupply (rush == 1) s).take
                ((h + 47) / 48 * (channelsIn (BitVec.ofNat 5 channels)).length)).map (fun n => .page n false),
              coverage := none, queuedRefs := 0, garmentRefs := 0, printActive := false, removed := false }
            s.ims.images } }))) ∧
  (∀ (s : State) (rush : Bool),
    (pageSupply rush s).Pairwise (· < ·) ∧
    ∀ n, n ∈ pageSupply rush s ↔
      n < (if rush then 8192 else 8192 - s.prf.line.reserve.pages) ∧ n ∉ s.ims.retired ∧
      ∀ p ∈ s.ims.images, p.2.removed = false → ∀ sent, Plane.page n sent ∉ p.2.planes)

/-- A run of R35: literal bytes, or one byte repeated. -/
inductive Run where
  | literal (bytes : List Byte)
  | repeated (count : Nat) (byte : Byte)

/-- A run within the lengths of R35. -/
def Run.ok : Run → Prop
  | .literal bs => 1 ≤ bs.length ∧ bs.length ≤ 128
  | .repeated n _ => 2 ≤ n ∧ n ≤ 129

/-- The bytes that spell a run. -/
def Run.spell : Run → List Byte
  | .literal bs => BitVec.ofNat 8 (bs.length - 1) :: bs
  | .repeated n b => [BitVec.ofNat 8 (n + 126), b]

/-- The bytes that a run yields. -/
def Run.yields : Run → List Byte
  | .literal bs => bs
  | .repeated n b => List.replicate n b

/-- RAW data is the plane itself at the plane's length alone (R34); RLE data yields what its runs yield, where that is
the plane size exactly, and data whose last run is cut short yields nothing (R35). -/
def Obligations.BandDataDecodes : Prop :=
  (∀ (size : Nat) (data : List Byte), planeData 0 size data = if data.length = size then some data else none) ∧
  (∀ (size : Nat) (runs : List Run), (∀ r ∈ runs, r.ok) →
    planeData 1 size (runs.flatMap Run.spell) =
      if (runs.flatMap Run.yields).length = size then some (runs.flatMap Run.yields) else none) ∧
  ∀ (size : Nat) (runs : List Run) (r : Run) (k : Nat), (∀ r ∈ runs, r.ok) → r.ok → 0 < k → k < r.spell.length →
    planeData 1 size (runs.flatMap Run.spell ++ r.spell.take k) = none

/-- BAND (R33): NOT_OPEN, RANGE, BAD_DATA in this order; else OK, and the plane stands in the entry's page from its
first byte, the entry is sent, and no other byte of the store and nothing else changes. -/
def Obligations.BandWritesPage : Prop :=
  ∀ (tag : Byte) (ch b enc : Nat) (data : List Byte) (s : State), Reads s →
    (openImage s = none → exec (.band tag ch b enc data) s = .next (replied 0x21 tag .notOpen [] s)) ∧
    (∀ slot i, openImage s = some (slot, i) → (i.channels.getLsbD ch = false ∨ (i.h + 47) / 48 ≤ b ∨ 2 ≤ enc) →
      exec (.band tag ch b enc data) s = .next (replied 0x21 tag .range [] s)) ∧
    ∀ slot i k, openImage s = some (slot, i) → i.channels.getLsbD ch = true → b < (i.h + 47) / 48 → enc < 2 →
      k = (channelsIn i.channels).idxOf ch * ((i.h + 47) / 48) + b →
      (planeData enc (min 48 (i.h - 48 * b) * ((i.w + 3) / 4)) data = none →
        exec (.band tag ch b enc data) s = .next (replied 0x21 tag .badData [] s)) ∧
      ∀ n sent bytes, i.planes[k]? = some (.page n sent) →
        planeData enc (min 48 (i.h - 48 * b) * ((i.w + 3) / 4)) data = some bytes →
        ∃ m, exec (.band tag ch b enc data) s = .next (replied 0x21 tag .ok [] { s with ims := { s.ims with
            store := m,
            images := tabMap slot (fun i => { i with planes := i.planes.set k (.page n true) }) s.ims.images } }) ∧
          ∀ a, storeRead m a =
            if 65536 * n ≤ a ∧ a < 65536 * n + bytes.length then (bytes[a - 65536 * n]?).getD 0
            else storeRead s.ims.store a

/-- IMAGE_ABORT (R36, R44): NOT_OPEN, or OK: the open image is removed and appended, so that its pages are free; no scan
is made. IMAGE_CLOSE (R37, R38): NOT_OPEN, or OK at once: unsent entries become BLANK and the others stay, the image is
CLOSING at the back of the scan queue and is appended; where no scan ran, its own begins at its first page, `nextPage`
being the first PAGE entry from the one given on. Nothing else changes. A scan with no page to read completes with the
image READY, its coverage zeros, and its WAIT_IMAGE units QUEUED with their references (R8, R10, R37, R39). The model's
choice: a scan that no other scan delays begins inside the request, and one with no page to read completes there (log
entry 13); at one event the image comes before the orders (log entry 11). -/
def Obligations.ImageEnds : Prop :=
  (∀ (planes : List Plane) (k : Nat),
    let page : Nat → Prop := fun j => ∃ n sent, planes[j]? = some (.page n sent)
    (∀ e, nextPage planes k = some e ↔ k ≤ e ∧ page e ∧ ∀ j, k ≤ j → j < e → ¬ page j) ∧
    (nextPage planes k = none ↔ ∀ j, k ≤ j → ¬ page j)) ∧
  (∀ (tag : Byte) (s : State), Reads s →
    (openImage s = none → exec (.imageAbort tag) s = .next (replied 0x23 tag .notOpen [] s)) ∧
    ∀ slot i, openImage s = some (slot, i) →
      exec (.imageAbort tag) s = .next (replied 0x23 tag .ok [] (noted (.image slot) { s with
        ims := { s.ims with images := tabMap slot (fun i => { i with removed := true }) s.ims.images } }))) ∧
  (∀ (tag : Byte) (s : State), Reads s →
    (openImage s = none → exec (.imageClose tag) s = .next (replied 0x22 tag .notOpen [] s)) ∧
    let closed : Plane → Plane := fun p => match p with
      | .page _ false => .blank
      | .page n true => .page n true
      | .blank => .blank
      | .lost => .lost
    ∀ slot i, Keyed s → openImage s = some (slot, i) →
      (∀ k, s.ims.scan = none → s.ims.scanQueue = [] → nextPage (i.planes.map closed) 0 = some k →
        exec (.imageClose tag) s = .next (replied 0x22 tag .ok [] (noted (.image slot) { s with ims := { s.ims with
          images := tabMap slot (fun i => { i with state := .closing, planes := i.planes.map closed }) s.ims.images,
          scanQueue := [slot],
          scan := some { slot := slot, entry := k, sums := .zero, bad := false } } }))) ∧
      (∀ c j k, s.ims.scan = some c → c.slot ≠ slot → tabGet c.slot s.ims.images = some j →
        nextPage j.planes c.entry = some k →
        exec (.imageClose tag) s = .next (replied 0x22 tag .ok [] (noted (.image slot) { s with ims := { s.ims with
          images := tabMap slot (fun i => { i with state := .closing, planes := i.planes.map closed }) s.ims.images,
          scanQueue := s.ims.scanQueue ++ [slot],
          scan := some { c with entry := k } } }))) ∧
      (s.ims.scan = none → s.ims.scanQueue = [] → nextPage (i.planes.map closed) 0 = none →
        ∃ t j, exec (.imageClose tag) s = .next t ∧ tabGet slot t.ims.images = some j ∧ j.state = .ready ∧
          j.coverage = some .zero ∧ j.planes = i.planes.map closed ∧ t.ims.scan = none ∧ t.ims.scanQueue = [] ∧
          t.lnk.reply = some { kind := 0xA2, tag := tag, body := [0x00] } ∧
          { t with lnk := s.lnk, ord := s.ord, ims := s.ims } = s ∧
          (imageOf i.id s = some (slot, i) →
            let named : Nat × UnitRec → Prop := fun p => p.2.state = .waitImage ∧ unitImage p.2 s = some i.id
            UnitsFollow i.id .waitImage .queued s t ∧
            j = { i with
              state := .ready, coverage := some .zero, planes := i.planes.map closed
              queuedRefs := i.queuedRefs +
                s.ord.units.countP fun p => p.2.state == .waitImage && unitImage p.2 s == some i.id } ∧
            (∀ q, q ≠ slot → tabGet q t.ims.images = tabGet q s.ims.images) ∧
            { t.ims with images := s.ims.images } = s.ims ∧
            ∃ l, t.lnk = (replied 0x22 tag .ok [] { s with lnk := { s.lnk with notices := l } }).lnk ∧
              noteIn (.image slot) s.lnk.notices <+: l ∧ ∀ r, r ∈ l ↔ r ∈ s.lnk.notices ∨ r = .image slot ∨
                ∃ p ∈ s.ord.units, named p ∧ r = .order p.2.slot)))

/-- IMAGE_DELETE (R42, R43): NOT_FOUND; OPEN is refused STATE; READY is refused IN_USE while referenced; DAMAGED is
refused BUSY while a print on it is active or has begun; else OK and the image is removed and appended, at a DAMAGED one
every garment that holds a reference takes IMAGE_GONE and no image, and a CLOSING one leaves the scan queue (R38): its
own scan ends there, and the next image of the queue is scanned from its first page, or is READY at once where no entry
of it is PAGE. The model's choice: the deleted image is appended before the image that is READY then (log entry 11). -/
def Obligations.ImageDeletes : Prop :=
  ∀ (tag : Byte) (id : Nat) (s : State), Reads s →
    (imageOf id s = none → exec (.imageDelete tag id) s = .next (replied 0x24 tag .notFound [] s)) ∧
    ∀ slot i, imageOf id s = some (slot, i) →
      (i.state = .open_ → exec (.imageDelete tag id) s = .next (replied 0x24 tag .state [] s)) ∧
      (i.state = .ready → 0 < i.queuedRefs ∨ 0 < i.garmentRefs →
        exec (.imageDelete tag id) s = .next (replied 0x24 tag .inUse [] s)) ∧
      (i.state = .ready → i.queuedRefs = 0 → i.garmentRefs = 0 →
        exec (.imageDelete tag id) s = .next (replied 0x24 tag .ok [] (noted (.image slot) { s with
          ims := { s.ims with images := tabMap slot (fun i => { i with removed := true }) s.ims.images } }))) ∧
      (i.state = .damaged → i.printActive = true ∨ printBegun id s = true →
        exec (.imageDelete tag id) s = .next (replied 0x24 tag .busy [] s)) ∧
      (i.state = .damaged → i.printActive = false → printBegun id s = false →
        exec (.imageDelete tag id) s = .next (replied 0x24 tag .ok [] (noted (.image slot) { s with
          ims := { s.ims with
            images := tabMap slot (fun i => { i with
              garmentRefs := i.garmentRefs - s.car.garments.countP (fun p => holdsImage id p.2), removed := true })
              s.ims.images },
          car := { s.car with garments := s.car.garments.map fun p =>
            if p.2.image = some id ∧ beforePrinted p.2 = true then
              (p.1, { p.2 with image := none, defects := addTo .imageGone p.2.defects })
            else p } }))) ∧
      (∀ c, i.state = .closing → s.ims.scan = some c → c.slot = slot → s.ims.scanQueue = [slot] →
        exec (.imageDelete tag id) s = .next (replied 0x24 tag .ok [] (noted (.image slot) { s with
          ims := { s.ims with
            images := tabMap slot (fun i => { i with removed := true }) s.ims.images, scanQueue := [],
            scan := none } }))) ∧
      (∀ c nx tail j k, i.state = .closing → s.ims.scan = some c → c.slot = slot →
        s.ims.scanQueue.filter (· != slot) = nx :: tail → tabGet nx s.ims.images = some j →
        (nextPage j.planes 0 = some k →
          exec (.imageDelete tag id) s = .next (replied 0x24 tag .ok [] (noted (.image slot) { s with ims := { s.ims with
            images := tabMap slot (fun i => { i with removed := true }) s.ims.images,
            scanQueue := nx :: tail,
            scan := some { slot := nx, entry := k, sums := .zero, bad := false } } }))) ∧
        (nextPage j.planes 0 = none → tail = [] → Keyed s → imageOf j.id s = some (nx, j) →
          ∃ t, exec (.imageDelete tag id) s = .next t ∧ UnitsFollow j.id .waitImage .queued s t ∧
            tabGet nx t.ims.images = some { j with
              state := .ready, coverage := some .zero,
              queuedRefs := j.queuedRefs +
                s.ord.units.countP fun p => p.2.state == .waitImage && unitImage p.2 s == some j.id } ∧
            tabGet slot t.ims.images = some { i with removed := true } ∧ t.ims.scan = none ∧ t.ims.scanQueue = [] ∧
            t.lnk.reply = some { kind := 0xA4, tag := tag, body := [0x00] } ∧
            { t with lnk := s.lnk, ord := s.ord, ims := s.ims } = s ∧ t.ims.store = s.ims.store ∧
            (∀ q, q ≠ slot → q ≠ nx → tabGet q t.ims.images = tabGet q s.ims.images) ∧
            { t.ims with images := s.ims.images, scan := s.ims.scan, scanQueue := s.ims.scanQueue } = s.ims ∧
            ∃ l, t.lnk = (replied 0x24 tag .ok [] { s with lnk := { s.lnk with notices := l } }).lnk ∧
              noteIn (.image slot) s.lnk.notices <+: l ∧ ∀ r, r ∈ l ↔ r ∈ s.lnk.notices ∨ r = .image slot ∨ r = .image nx ∨
                ∃ p ∈ s.ord.units, p.2.state = .waitImage ∧ unitImage p.2 s = some j.id ∧ r = .order p.2.slot)) ∧
      (∀ c j k, i.state = .closing → s.ims.scan = some c → c.slot ≠ slot → tabGet c.slot s.ims.images = some j →
        nextPage j.planes c.entry = some k →
        exec (.imageDelete tag id) s = .next (replied 0x24 tag .ok [] (noted (.image slot) { s with ims := { s.ims with
          images := tabMap slot (fun i => { i with removed := true }) s.ims.images,
          scanQueue := s.ims.scanQueue.filter (· != slot), scan := some { c with entry := k } } })))

/-- The coverage scan (R38, R39, R45, R46): SCAN_START begins on the first page of the image at the front of the scan
queue; a page read adds the page's drop values to its channel's units, and to the white or the colour units of the cells
that its dots fall in by their place on the platen, its padding not counted (R24, R40); a corrected read raises the
corrected-error count, and an uncorrectable one retires the page, marks its entry LOST and raises STORE_ECC, and changes
nothing else; the scan goes on with the next page, or completes. The completion: READY with its coverage after good
reads alone, DAMAGED after any uncorrectable one; the units that name the image follow (R8, R9), with the pick queue and
the image's references (R10); and the next scan of the queue begins, if one waits. Nothing else changes. -/
def Obligations.CoverageScan : Prop :=
  (Coverage.zero = { units := List.replicate 5 0, cells := List.replicate 104 { white := 0, colour := 0 } } ∧
  (∀ (c : Coverage) (i : Image) (ch b : Nat) (plane : List Byte), c.units.length = 5 → c.cells.length = 104 → ch < 5 →
    let drop : Nat → Nat → Nat := fun y x => ((plane[y * ((i.w + 3) / 4) + x / 4]?).getD 0).toNat / 4 ^ (3 - x % 4) % 4
    let dots : (Nat → Nat → Bool) → Nat := fun among => ((List.range (min 48 (i.h - 48 * b))).map fun y =>
      ((List.range i.w).map fun x => if among y x = true then drop y x else 0).sum).sum
    (c.add i ch b plane).units.length = 5 ∧ (c.add i ch b plane).cells.length = 104 ∧
    (∀ k < 5, ((c.add i ch b plane).units[k]?).getD 0 =
      (c.units[k]?).getD 0 + if k = ch then dots fun _ _ => true else 0) ∧
    ∀ lane row, lane < 8 → row < 13 →
      let u := dots fun y x => (i.x0 + x) / 600 == lane && (i.y0 + (48 * b + y)) / 480 == row
      (c.add i ch b plane).cell lane row = { white := (c.cell lane row).white + if ch = 0 then u else 0
                                             colour := (c.cell lane row).colour + if ch = 0 then 0 else u }) ∧
  (∀ (i : Image) (ch b : Nat), i.channels.getLsbD ch = true → b < (i.h + 47) / 48 →
    entryAt i ((channelsIn i.channels).idxOf ch * ((i.h + 47) / 48) + b) = (ch, b) ∧
    planeSize i.w i.h b = min 48 (i.h - 48 * b) * ((i.w + 3) / 4)) ∧
  ∀ (m : List Host.Cell) (n len : Nat), (pageRead m n len).length = len ∧
    ∀ k < len, (pageRead m n len)[k]? = some (storeRead m (65536 * n + k))) ∧
  (∀ (s : State) (slot : Nat) (rest : List Nat) (i : Image) (k : Nat), s.ims.scan = none →
    s.ims.scanQueue = slot :: rest → tabGet slot s.ims.images = some i → nextPage i.planes 0 = some k →
    ∃ t, exec .scanStart s = .next t ∧ Sent { s with ims := { s.ims with
      scan := some { slot := slot, entry := k, sums := .zero, bad := false } } } t) ∧
  ∀ (s : State) (c : Scan) (i : Image) (n : Nat) (sent : Bool), Keyed s → Shaped s → s.ims.scan = some c →
    tabGet c.slot s.ims.images = some i → i.planes[c.entry]? = some (.page n sent) →
    (∀ k, nextPage i.planes (c.entry + 1) = some k →
      (∃ t, exec (.scanPageRead .clean) s = .next t ∧ Sent { s with
        ims := { s.ims with
          scan := some { c with
            entry := k,
            sums := c.sums.add i (entryAt i c.entry).1 (entryAt i c.entry).2
              (pageRead s.ims.store n (planeSize i.w i.h (entryAt i c.entry).2)) } } } t) ∧
      (∃ t, exec (.scanPageRead .corrected) s = .next t ∧ Sent { s with
        ims := { s.ims with
          corrected := if s.ims.corrected + 1 ≤ 65535 then s.ims.corrected + 1 else 65535,
          scan := some { c with
            entry := k,
            sums := c.sums.add i (entryAt i c.entry).1 (entryAt i c.entry).2
              (pageRead s.ims.store n (planeSize i.w i.h (entryAt i c.entry).2)) } } } t) ∧
      ∃ t, exec (.scanPageRead .uncorrectable) s = .next t ∧
        t.ims.scan = some { c with entry := k, bad := true } ∧ n ∈ t.ims.retired ∧
        tabGet c.slot t.ims.images = some { i with planes := i.planes.set c.entry .lost } ∧
        (∀ j, j ≠ 17 → alarm j t = alarm j s) ∧
        (alarm 17 t).state = .latched ∧ (alarm 17 t).present = false ∧
        { t with lnk := s.lnk, ims := s.ims, alm := s.alm } = s ∧ t.ims.store = s.ims.store ∧
        ∃ retired, (∀ m, m ∈ retired ↔ m ∈ s.ims.retired ∨ m = n) ∧ Sent (alarmed 17 Alarm.passed { s with
          ims := { s.ims with
            images := tabMap c.slot (fun i => { i with planes := i.planes.set c.entry .lost }) s.ims.images
            scan := some { c with entry := k, bad := true }
            retired := retired } }) t) ∧
    (nextPage i.planes (c.entry + 1) = none → s.ims.scanQueue = [c.slot] → c.bad = false →
      ∃ t j, exec (.scanPageRead .clean) s = .next t ∧ tabGet c.slot t.ims.images = some j ∧ j.state = .ready ∧
        j.coverage = some (c.sums.add i (entryAt i c.entry).1 (entryAt i c.entry).2
          (pageRead s.ims.store n (planeSize i.w i.h (entryAt i c.entry).2))) ∧
        t.ims.scan = none ∧ t.ims.scanQueue = [] ∧
        (∀ q u, tabGet q t.ord.units = some u → unitImage u s = some i.id → u.state ≠ .waitImage) ∧
        { t with lnk := s.lnk, ord := s.ord, ims := s.ims } = s ∧ t.ims.store = s.ims.store) ∧
    ∀ (r : ReadResult) (rest : List Nat) (next : Option Scan), nextPage i.planes (c.entry + 1) = none →
      s.ims.scanQueue = c.slot :: rest → c.slot ∉ rest → imageOf i.id s = some (c.slot, i) →
      (rest = [] ∧ next = none ∨ ∃ slot tail j e, rest = slot :: tail ∧ tabGet slot s.ims.images = some j ∧
        nextPage j.planes 0 = some e ∧ next = some { slot := slot, entry := e, sums := .zero, bad := false }) →
      let bad : Bool := c.bad || r == .uncorrectable
      let a : UnitState := if bad then .queued else .waitImage
      let named : Nat := s.ord.units.countP fun p => p.2.state == a && unitImage p.2 s == some i.id
      let j : Image := if bad then { i with
          state := .damaged
          planes := if r = .uncorrectable then i.planes.set c.entry .lost else i.planes
          queuedRefs := i.queuedRefs - named }
        else { i with
          state := .ready
          coverage := some (c.sums.add i (entryAt i c.entry).1 (entryAt i c.entry).2
            (pageRead s.ims.store n (planeSize i.w i.h (entryAt i c.entry).2)))
          queuedRefs := i.queuedRefs + named }
      ∃ u t, exec (.scanPageRead r) s = .next t ∧ Sent u t ∧
        UnitsFollow i.id a (if bad then .waitImage else .queued) s u ∧
        tabGet c.slot u.ims.images = some j ∧ (∀ k, k ≠ c.slot → tabGet k u.ims.images = tabGet k s.ims.images) ∧
        u.ims.scanQueue = rest ∧ u.ims.scan = next ∧ u.ims.store = s.ims.store ∧
        u.ims.corrected = (if r = .corrected then min 65535 (s.ims.corrected + 1) else s.ims.corrected) ∧
        (∀ m, m ∈ u.ims.retired ↔ m ∈ s.ims.retired ∨ r = .uncorrectable ∧ m = n) ∧
        u.alm = (if r = .uncorrectable then (alarmed 17 Alarm.passed s).alm else s.alm) ∧
        .image c.slot ∈ u.lnk.notices ∧
        (∀ p ∈ s.ord.units, p.2.state = a → unitImage p.2 s = some i.id → .order p.2.slot ∈ u.lnk.notices) ∧
        { u.lnk with notices := s.lnk.notices } = s.lnk ∧
        { u with lnk := s.lnk, ord := s.ord, ims := s.ims, alm := s.alm } = s

/-! ## Profiles and settings -/

/-- The line settings of R56 with the codes of R230: a value outside the range of a numeric one is clamped to the
nearest bound (R55, R57 check 2), an enumeration, a flag or a mask takes a value of its table alone, the named setting
takes it, and no other setting changes. An unknown code, and an index that the setting does not have, are refused. ESTOP
keeps its fixed sense; bits 24 to 31 of an exempt mask are not read. -/
def Obligations.SettingRanges : Prop :=
  ∀ (l : LineSettings) (v : Nat),
    applySetting { code := 0x01, index := 0, value := v } l =
      some ({ l with lineId := min v 255 }, decide (255 < v)) ∧
    applySetting { code := 0x02, index := 0, value := v } l =
      some ({ l with reprintLimit := min v 7 }, decide (7 < v)) ∧
    applySetting { code := 0x03, index := 0, value := v } l =
      some ({ l with recureLimit := min v 3 }, decide (3 < v)) ∧
    applySetting { code := 0x06, index := 0, value := v } l =
      some ({ l with markTol := min v 8 }, decide (8 < v)) ∧
    applySetting { code := 0x08, index := 0, value := v } l =
      some ({ l with shuttleSpeed := max 100 (min v 1500) }, decide (v < 100 ∨ 1500 < v)) ∧
    applySetting { code := 0x09, index := 0, value := v } l =
      some ({ l with tickle := max 16 (min v 255) }, decide (v < 16 ∨ 255 < v)) ∧
    applySetting { code := 0x0B, index := 0, value := v } l =
      some ({ l with barSpeed := max 100 (min v 400) }, decide (v < 100 ∨ 400 < v)) ∧
    applySetting { code := 0x0C, index := 0, value := v } l =
      some ({ l with laneMult := min v 15 }, decide (15 < v)) ∧
    (∀ k < 8, applySetting { code := 0x0D, index := k, value := v } l =
      some ({ l with laneDelays := l.laneDelays.set k (min v 255) }, decide (255 < v))) ∧
    applySetting { code := 0x0E, index := 0, value := v } l =
      some ({ l with flow := max 1 (min v 1000) }, decide (v < 1 ∨ 1000 < v)) ∧
    applySetting { code := 0x0F, index := 0, value := v } l =
      some ({ l with tankCap := max 100 (min v 20000) }, decide (v < 100 ∨ 20000 < v)) ∧
    applySetting { code := 0x10, index := 0, value := v } l =
      some ({ l with tankReserve := min v 20000 }, decide (20000 < v)) ∧
    applySetting { code := 0x11, index := 0, value := v } l =
      some ({ l with flashWait := max 5 (min v 120) }, decide (v < 5 ∨ 120 < v)) ∧
    applySetting { code := 0x12, index := 0, value := v } l =
      some ({ l with bins := min v 24 }, decide (24 < v)) ∧
    (∀ c < 5, ∃ x, applySetting { code := 0x0A, index := c, value := v } l = some ({ l with exempt := x }, false) ∧
      ∀ m < 120, x.getLsbD m = if m / 24 = c then v.testBit (m % 24) else l.exempt.getLsbD m) ∧
    applySetting { code := 0x04, index := 0, value := v } l =
      ([Reserve.zero, .sixteenth, .eighth, .quarter, .half][v]?).map (fun x => ({ l with reserve := x }, false)) ∧
    applySetting { code := 0x05, index := 0, value := v } l =
      ([LossRule.twoOfFour, .twoOfFive][v]?).map (fun x => ({ l with lossRule := x }, false)) ∧
    applySetting { code := 0x07, index := 0, value := v } l =
      ([false, true][v]?).map (fun x => ({ l with autoResync := x }, false)) ∧
    applySetting { code := 0x13, index := 0, value := v } l =
      (if v < 16 then some ({ l with guardMask := BitVec.ofNat 4 v }, false) else none) ∧
    (∀ k, 1 ≤ k → k ≤ 14 → applySetting { code := 0x14, index := k, value := v } l =
      if k = 1 ∧ v = 0 then none
      else ([Sense.edge, .edgeLevel][v]?).map fun x => ({ l with senses := l.senses.set (k - 1) x }, false)) ∧
    (∀ k < 22, applySetting { code := 0x15, index := k, value := v } l =
      ([false, true][v]?).map fun x => ({ l with masks := l.masks.set k x }, false)) ∧
    applySetting { code := 0x16, index := 0, value := v } l =
      ([false, true][v]?).map (fun x => ({ l with lock := x }, false)) ∧
    ∀ c k, (c = 0 ∨ 0x16 < c ∨ (c = 0x0A ∧ 5 ≤ k) ∨ (c = 0x0D ∧ 8 ≤ k) ∨ (c = 0x14 ∧ (k = 0 ∨ 14 < k)) ∨
        (c = 0x15 ∧ 22 ≤ k) ∨ (c ∉ [0x0A, 0x0D, 0x14, 0x15] ∧ k ≠ 0)) →
      applySetting { code := c, index := k, value := v } l = none

/-- `u` after the fluid test of a schedule (R94): with its fluid above the reserve the traverse waits and FLUID_LOW
ends; without it the garment is held with FLUID_LOW. -/
def fluidTested (k : Schedule) (u : State) : State :=
  if k.fluid + u.prf.line.tankReserve * 1000000 ≤ u.ptr.tank then
    let w := setHold .pretreat .none { u with ptr := { u.ptr with job := .waiting } }
    if (alarm 4 u).present = true then endedAt 4 w else w
  else
    let w := setHold .pretreat .fluidLow { u with ptr := { u.ptr with job := .held } }
    if (alarm 4 u).present = true then w else alarmed 4 Alarm.begun w

/-- CONFIG_SET (R57, R59, R230): the checks in their order, RANGE where a setting, the pair of code and index, is named
twice or an entry is refused; else every named value is stored at one event, entry by entry as `applySetting` stores one
(R55, R56), CLAMPED where one entry's value was clamped, a tank estimate above the new capacity is lowered to it, and
with tank and guard settings unchanged nothing else changes. A changed tank setting has a garment whose traverse has not
begun tested again (R59, R94); a changed guard mask has the GUARD condition judged over the guards now enabled (R206). A
changed reserve size is barred where an image that is not rush holds a page of the new reserve, the highest pages (R25,
R26). The model's choice: the level of KEY comes with the request and is kept with every answer (log entry 10); with
both changed the fluid is tested before GUARD is judged (log entry 11). -/
def Obligations.ConfigSet : Prop :=
  (∀ es : List SettingEntry, namedOnce es = false ↔
    ∃ (i j : Nat) (a b : SettingEntry), i < j ∧ es[i]? = some a ∧ es[j]? = some b ∧ a.code = b.code ∧ a.index = b.index) ∧
  (∀ l : LineSettings, applySettings [] l = some (l, false)) ∧
  (∀ (e : SettingEntry) (es : List SettingEntry) (l : LineSettings),
    (applySetting e l = none → applySettings (e :: es) l = none) ∧
    ∀ m c, applySetting e l = some (m, c) →
      (applySettings es m = none → applySettings (e :: es) l = none) ∧
      ∀ n d, applySettings es m = some (n, d) → applySettings (e :: es) l = some (n, c || d)) ∧
  ∀ (tag : Byte) (key : Bool) (es : List SettingEntry) (s : State), Reads s →
    let u : State := { s with pins := { s.pins with key := key } }
    let quiet : Prop := (s.car.line = .idle ∨ s.car.line = .stopped) ∧ s.ctc.tunnel = [] ∧ s.exs.recure = []
    (es = [] ∨ 64 < es.length ∨ namedOnce es = false ∨ applySettings es s.prf.line = none →
      exec (.configSet tag key es) s = .next (replied 0x10 tag .range [] u)) ∧
    ∀ l c, es ≠ [] → es.length ≤ 64 → namedOnce es = true → applySettings es s.prf.line = some (l, c) →
      let locked : Prop := s.prf.line.lock = true ∧ l.lock = false ∧ key = false
      let barred : Prop := (s.prf.line.lineId ≠ l.lineId ∧ ¬ quiet) ∨
        (s.prf.line.reserve ≠ l.reserve ∧ ∃ i ∈ s.ims.images, i.2.removed = false ∧ i.2.rush = false ∧
          ∃ n sent, Plane.page n sent ∈ i.2.planes ∧ 8192 - l.reserve.pages ≤ n)
      (l.tankCap < l.tankReserve → exec (.configSet tag key es) s = .next (replied 0x10 tag .range [] u)) ∧
      (l.tankReserve ≤ l.tankCap → locked →
        exec (.configSet tag key es) s = .next (replied 0x10 tag .locked [] u)) ∧
      (l.tankReserve ≤ l.tankCap → ¬ locked → barred →
        exec (.configSet tag key es) s = .next (replied 0x10 tag .state [] u)) ∧
      (l.tankReserve ≤ l.tankCap → ¬ locked → ¬ barred →
        (l.tankCap = s.prf.line.tankCap → l.tankReserve = s.prf.line.tankReserve →
          l.guardMask = s.prf.line.guardMask →
          exec (.configSet tag key es) s = .next (replied 0x10 tag (acceptStatus c) [] { u with
            prf := { s.prf with line := l },
            ptr := { s.ptr with tank := min s.ptr.tank (l.tankCap * 1000000) } })) ∧
        (let w : State := { u with
           prf := { s.prf with line := l }, ptr := { s.ptr with tank := min s.ptr.tank (l.tankCap * 1000000) } }
         l.tankCap ≠ s.prf.line.tankCap ∨ l.tankReserve ≠ s.prf.line.tankReserve → l.guardMask = s.prf.line.guardMask →
          (s.ptr.job ≠ .held → s.ptr.job ≠ .waiting → ∃ t, exec (.configSet tag key es) s = .next t ∧
            Onward (replied 0x10 tag (acceptStatus c) [] w) t) ∧
          ∀ k, s.ptr.job = .held ∨ s.ptr.job = .waiting → s.ptr.schedule = some k →
            ∃ t, exec (.configSet tag key es) s = .next t ∧
              Onward (replied 0x10 tag (acceptStatus c) [] (fluidTested k w)) t) ∧
        (let w : State := { u with
           prf := { s.prf with line := l }, ptr := { s.ptr with tank := min s.ptr.tank (l.tankCap * 1000000) } }
         let low : Prop := l.guardMask &&& ~~~s.pins.guards ≠ 0
         l.tankCap = s.prf.line.tankCap → l.tankReserve = s.prf.line.tankReserve → l.guardMask ≠ s.prf.line.guardMask →
          (low → (alarm 1 s).present = false → ∃ t, exec (.configSet tag key es) s = .next t ∧
            Onward (replied 0x10 tag (acceptStatus c) [] (alarmed 1 Alarm.begun w)) t) ∧
          (¬ low → (alarm 1 s).present = true → ∃ t, exec (.configSet tag key es) s = .next t ∧
            Onward (replied 0x10 tag (acceptStatus c) [] (endedAt 1 w)) t) ∧
          (((alarm 1 s).present = true ↔ low) → ∃ t, exec (.configSet tag key es) s = .next t ∧
            Onward (replied 0x10 tag (acceptStatus c) [] w) t)) ∧
        ∃ t, exec (.configSet tag key es) s = .next t ∧ t.prf = { s.prf with line := l } ∧
          t.lnk.reply = some { kind := 0x90, tag := tag, body := be 1 (acceptStatus c).code } ∧
          t.pins = u.pins ∧ t.ptr.tank = min s.ptr.tank (l.tankCap * 1000000) ∧
          t.ord = s.ord ∧ t.ctc = s.ctc ∧ t.exs = s.exs ∧ t.ims.store = s.ims.store ∧
          t.car.platens = s.car.platens ∧ t.car.garments = s.car.garments ∧
          (Shaped s → l.guardMask ≠ s.prf.line.guardMask →
            (alarm 1 t).present = decide (l.guardMask &&& ~~~s.pins.guards ≠ 0)))

/-- The numeric fields of a profile body clamped to the ranges of R50. -/
def clampedProfile (b : ProfileBody) : ProfileBody :=
  { b with
    pFloor := min b.pFloor 1000, tBase := min b.tBase 4000, tGain := min b.tGain 4000, tMin := min b.tMin 4000,
    tMax := min b.tMax 4000, dwell := min b.dwell 60, tfMin := max 1000 (min b.tfMin 2500),
    tfMax := max 1000 (min b.tfMax 2500), lineLimit := min b.lineLimit 6240, dotLimit := min b.dotLimit 16777215,
    markX := min b.markX 4752, markY := min b.markY 6208, tTh := min b.tTh 2500, dBase := min b.dBase 2000000,
    kInk := min b.kInk 255, dMax := max 1 (min b.dMax 4000000) }

/-- PROFILE_SET (R51, R52): LOCKED with the lock on and KEY low; RANGE for an id, basis or mark flag outside its values,
or a pair inconsistent after the clamps; else the profile takes every field as clamped, field by field, CLAMPED where
one changed, and nothing else changes. The model's choice: the level of KEY comes with the request and is kept with
every answer (log entry 10). -/
def Obligations.ProfileSet : Prop :=
  ∀ (tag : Byte) (key : Bool) (id : Nat) (b : ProfileBody) (s : State), Reads s →
    let u : State := { s with pins := { s.pins with key := key } }
    let c := clampedProfile b
    (s.prf.line.lock = true → key = false →
      exec (.profileSet tag key id b) s = .next (replied 0x12 tag .locked [] u)) ∧
    ((s.prf.line.lock = true → key = true) →
      (15 < id ∨ 3 ≤ b.basis ∨ 2 ≤ b.markOn ∨ (clampedProfile b).tMax < (clampedProfile b).tMin ∨
        (clampedProfile b).tfMax < (clampedProfile b).tfMin →
        exec (.profileSet tag key id b) s = .next (replied 0x12 tag .range [] u)) ∧
      ∀ basis, id ≤ 15 → b.markOn < 2 → b.basis = Basis.code basis →
        (clampedProfile b).tMin ≤ (clampedProfile b).tMax → (clampedProfile b).tfMin ≤ (clampedProfile b).tfMax →
        exec (.profileSet tag key id b) s =
          .next (replied 0x12 tag (acceptStatus (decide (clampedProfile b ≠ b))) [] { u with
            prf := { s.prf with
              profiles := s.prf.profiles.set id {
                basis := basis, pFloor := c.pFloor, tBase := c.tBase, tGain := c.tGain, tMin := c.tMin, tMax := c.tMax,
                dwell := c.dwell, tfMin := c.tfMin, tfMax := c.tfMax, lineLimit := c.lineLimit, dotLimit := c.dotLimit,
                markOn := b.markOn == 1, markX := c.markX, markY := c.markY, tTh := c.tTh, dBase := c.dBase,
                kInk := c.kInk, dMax := c.dMax } } }))

/-- The cure settings of a body clamped to the ranges of R60. -/
def clampedCure (b : CureBody) : CureBody :=
  { tSet1 := max 1000 (min b.tSet1 2500), tSet2 := max 1000 (min b.tSet2 2500), tSet3 := max 1000 (min b.tSet3 2500),
    tTrip := max 1000 (min b.tTrip 3000), band := max 10 (min b.band 500), samples := max 1 (min b.samples 255),
    gain := max 1 (min b.gain 255), dMin := min b.dMin 1000, dMax := min b.dMax 1000,
    sMin := max 50 (min b.sMin 1000), sMax := max 50 (min b.sMax 1000) }

/-- CURE_SET (R60, R61, R156): RANGE for an inconsistent pair after the clamps; else every cure setting takes its value,
field by field, and the belt speed is the one selected with the new settings (`selectSpeed`, which SpeedAndAdmission
states), within the new range; with no garment on the belt it is s_max. SPIT_SET (R62): the period is clamped to 1..16,
masks and counts are stored, and a changed period sets the spit counter to 0. Nothing else changes. -/
def Obligations.CureAndSpitSet : Prop :=
  (∀ (tag : Byte) (b : CureBody) (s : State), Reads s →
    let c := clampedCure b
    ((c.dMax < c.dMin ∨ c.sMax < c.sMin ∨ c.tTrip ≤ c.tSet1 ∨ c.tTrip ≤ c.tSet2 ∨ c.tTrip ≤ c.tSet3) →
      exec (.cureSet tag b) s = .next (replied 0x14 tag .range [] s)) ∧
    (c.dMin ≤ c.dMax → c.sMin ≤ c.sMax → c.tSet1 < c.tTrip → c.tSet2 < c.tTrip → c.tSet3 < c.tTrip →
      let u : State := { s with prf := { s.prf with cure := {
        tSet := [c.tSet1, c.tSet2, c.tSet3], tTrip := c.tTrip, band := c.band, samples := c.samples, gain := c.gain,
        dMin := c.dMin, dMax := c.dMax, sMin := c.sMin, sMax := c.sMax } } }
      exec (.cureSet tag b) s = .next (replied 0x14 tag (acceptStatus (decide (c ≠ b))) []
          { u with ctc := { s.ctc with selected := selectSpeed u } }) ∧
        c.sMin ≤ selectSpeed u ∧ selectSpeed u ≤ c.sMax ∧
        (s.ctc.tunnel = [] → s.ctc.entrant = none → selectSpeed u = c.sMax))) ∧
  (∀ (tag : Byte) (b : SpitBody) (s : State), Reads s →
    let period := max 1 (min b.period 16)
    exec (.spitSet tag b) s = .next (replied 0x15 tag
      (acceptStatus (decide (period ≠ b.period ∨ b.counts.map (fun n => min n 255) ≠ b.counts))) [] { s with
        prf := { s.prf with spit := {
          period := period, masks := b.masks.map (BitVec.ofNat 16), counts := b.counts.map fun n => min n 255 } },
        fdp := { s.fdp with spitCounter := if period = s.prf.spit.period then s.fdp.spitCounter else 0 } }))

/-- NOZZLE_SET (R126): RANGE for an empty or too long list or an entry outside its values; else the entries act in list
order, each on the nozzles from its first position, its count cut at the row's end: a nozzle takes the state of the last
entry that names it, and no other nozzle and nothing else changes. -/
def Obligations.NozzleSet : Prop :=
  (∀ (tag : Byte) (es : List NozzleEntry) (s : State), Reads s →
    (es = [] ∨ 512 < es.length ∨ (∃ e ∈ es, 5 ≤ e.channel ∨ 2 ≤ e.row ∨ 4800 ≤ e.first ∨ e.count = 0 ∨ 3 ≤ e.state) →
      exec (.nozzleSet tag es) s = .next (replied 0x16 tag .range [] s)) ∧
    (es ≠ [] → es.length ≤ 512 →
      (∀ e ∈ es, e.channel < 5 ∧ e.row < 2 ∧ e.first < 4800 ∧ 1 ≤ e.count ∧ e.state < 3) →
      ∃ map c, applyNozzles es s.fdp.nozzles = some (map, c) ∧
        c = es.any (fun e => decide (4800 - e.first < e.count)) ∧
        exec (.nozzleSet tag es) s = .next (replied 0x16 tag (acceptStatus c) [] { s with
          fdp := { s.fdp with nozzles := map } }) ∧
        let names : NozzleEntry → Nat → Prop := fun e x => 9600 * e.channel + 4800 * e.row + e.first ≤ x ∧
          x < 9600 * e.channel + 4800 * e.row + e.first + min e.count (4800 - e.first)
        ∀ x, ((∀ e ∈ es, ¬ names e x) → nozzleState map x = nozzleState s.fdp.nozzles x) ∧
          ∀ front e back, es = front ++ e :: back → names e x → (∀ d ∈ back, ¬ names d x) →
            nozzleCode (nozzleState map x) = e.state)) ∧
  ∀ (e : NozzleEntry) (map m : List (Nat × NozzleFault)) (c : Bool), applyNozzle e map = some (m, c) →
    ∀ x, nozzleCode (nozzleState m x) =
      if 9600 * e.channel + 4800 * e.row + e.first ≤ x ∧
          x < 9600 * e.channel + 4800 * e.row + e.first + min e.count (4800 - e.first) then e.state
      else nozzleCode (nozzleState map x)

/-! ## Lines -/

/-- LINE_START (R71): STATE while a halt-class alarm is not IDLE or a drill runs; RUNNING stays; from IDLE, STOPPED and
DRAINING the line becomes RUNNING, a LOAD station RELEASED on an EMPTY platen returns to WORKING, the belt stall timer
follows the belt and the line is appended; from HALTED it becomes RUNNING so too, and the line resume (R74) does what
`ResumedFrom` says: what PRETREAT (R98), FLASH (R105), PRINT (R121, R122) and the transfer go on with or decide again.
LINE_STOP (R72): in IDLE, STOPPED and DRAINING nothing changes; in HALTED it is refused STATE as LINE_START is, and else
resumes the line to DRAINING, or to STOPPED; from RUNNING the line becomes DRAINING, an EMPTY platen at a WORKING LOAD
station is released, and with no garment on a platen and no index in progress the line is STOPPED. The model's choice,
in the resume: a last return goes on as a homing, its job state RETURN kept (log entry 38); a shuttle stopped with a
WAITING garment, or whose ENCODER became IDLE during HALTED, homes at the resume (log entry 41); a hot wait
with FLASH_HOT IDLE before the halt, whose condition ended in HALTED, is decided again (log entry 42). -/
def Obligations.LineStartAndStop : Prop :=
  (∀ (tag : Byte) (s : State), Reads s →
    let clear : Prop := (alarm 0 s).state = .idle ∧ (alarm 2 s).state = .idle ∧ (alarm 16 s).state = .idle ∧
      s.alm.drill = 0
    (¬ clear → exec (.lineStart tag) s = .next (replied 0x48 tag .state [] s)) ∧
    (clear → s.car.line = .running → exec (.lineStart tag) s = .next (replied 0x48 tag .ok [] s)) ∧
    (clear → s.car.line = .idle ∨ s.car.line = .stopped ∨ s.car.line = .draining →
      ∃ t, exec (.lineStart tag) s = .next t ∧ Onward (replied 0x48 tag .ok [] (noted .line { s with
        car := { s.car with
          line := .running,
          load := if contentsAt .load s = .empty ∧ s.car.index = .none ∧ s.car.load.working = false then
              { working := true, hold := .none } else s.car.load },
        ctc := { s.ctc with stallFrom :=
          if s.ctc.selected = 0 then none else if s.ctc.stallFrom.isSome then s.ctc.stallFrom else some s.clock } })) t) ∧
    (clear → s.car.line = .halted →
      ∃ t, exec (.lineStart tag) s = .next t ∧ ResumedFrom s t ∧ t.car.line = .running ∧
        t.car.load = (if contentsAt .load s = .empty ∧ s.car.index = .none ∧ s.car.load.working = false then
          { working := true, hold := .none } else s.car.load) ∧
        t.lnk.reply = some { kind := 0xC8, tag := tag, body := [0x00] } ∧ .line ∈ t.lnk.notices)) ∧
  (∀ (tag : Byte) (s : State), Reads s →
    (s.car.line = .idle ∨ s.car.line = .stopped ∨ s.car.line = .draining →
      exec (.lineStop tag) s = .next (replied 0x49 tag .ok [] s)) ∧
    (s.car.line = .halted → startAllowed s = false →
      exec (.lineStop tag) s = .next (replied 0x49 tag .state [] s)) ∧
    (s.car.line = .halted → startAllowed s = true → ∃ t, exec (.lineStop tag) s = .next t ∧ ResumedFrom s t ∧
      t.car.line = (if noGarmentOnPlatens s = true ∧ s.car.index = .none then .stopped else .draining) ∧
      t.car.load = (if contentsAt .load s = .empty ∧ s.car.index = .none ∧ s.car.load.working = true then
        { working := false, hold := .none } else s.car.load) ∧
      t.lnk.reply = some { kind := 0xC9, tag := tag, body := [0x00] } ∧ .line ∈ t.lnk.notices) ∧
    (s.car.line = .running →
      ∃ t, exec (.lineStop tag) s = .next t ∧ Onward (replied 0x49 tag .ok [] (noted .line { s with
        car := { s.car with
          line := if noGarmentOnPlatens s = true ∧ s.car.index = .none then .stopped else .draining,
          refused := false,
          load := if contentsAt .load s = .empty ∧ s.car.index = .none ∧ s.car.load.working = true then
              { working := false, hold := .none } else s.car.load },
        ctc := { s.ctc with stallFrom :=
          if s.ctc.selected = 0 then none else if s.ctc.stallFrom.isSome then s.ctc.stallFrom else some s.clock } })) t))

/-- LINE_HALT (R73): answered OK in every line state; RUNNING, DRAINING and STOPPED become HALTED, and in IDLE and
HALTED the line keeps its state. INDEX_TIMEOUT on a MOVING index pauses it with its run time at 0 s and raises
INDEX_FAULT (R70), BELT_STALL_EXPIRY with the stall timer running raises BELT_STALL (R158), each once and momentary, and
the line halts (R73, R201); with the index not MOVING, or the timer stopped, nothing of this happens. Each halt does to
the work at the stations what `HaltedWork` says: the traverse cut short with the fluid actually sprayed (R98), the
pressing cut short and the cold wait ended (R105), the print aborted (R122). The model's choice: an expiry asserts that
its time has come, so it acts whatever the clock reads (log entry 9); the job and the hold reason after a cold wait are
NONE (log entry 22); the counters and the framer state of an aborted stroke stay (log entry 34). -/
def Obligations.Halts : Prop :=
  (∀ (tag : Byte) (s : State), Reads s →
    (s.car.line = .idle ∨ s.car.line = .halted →
      ∃ t, exec (.lineHalt tag) s = .next t ∧ Onward (replied 0x4A tag .ok [] s) t) ∧
    (s.car.line = .running ∨ s.car.line = .draining ∨ s.car.line = .stopped →
      ∃ t, exec (.lineHalt tag) s = .next t ∧ HaltedFrom s t ∧ HaltedWork s t ∧ t.pins = s.pins ∧ t.pending = s.pending ∧
        .line ∈ t.lnk.notices ∧ t.lnk.reply = some { kind := 0xCA, tag := tag, body := [0x00] } ∧
        ∀ i < 22, (alarm i s).simulated = false → alarm i t = alarm i s)) ∧
  ((∀ s : State, Shaped s → s.car.line = .running ∨ s.car.line = .draining ∨ s.car.line = .stopped →
    (s.car.index = .moving → ∃ t, exec .indexTimeout s = .next t ∧ HaltedFrom s t ∧ HaltedWork s t ∧ t.car.indexRun = 0 ∧
      alarm 2 t = { state := .latched, present := false, acked := false, count := satAdd 255 1 (alarm 2 s).count,
                    simulated := false } ∧ t.pins = s.pins) ∧
    (s.ctc.stallFrom.isSome = true → ∃ t, exec .beltStallExpiry s = .next t ∧ HaltedFrom s t ∧ HaltedWork s t ∧
      alarm 16 t = { state := .latched, present := false, acked := false, count := satAdd 255 1 (alarm 16 s).count,
                     simulated := false } ∧ t.pins = s.pins)) ∧
  (∀ s : State, s.car.index ≠ .moving → ∃ t, exec .indexTimeout s = .next t ∧ Onward s t) ∧
  ∀ s : State, s.ctc.stallFrom = none → ∃ t, exec .beltStallExpiry s = .next t ∧ Onward s t)

/-! ## The entry gate -/

/-- The speed pairs of the tunnel list members in the heated part (R155, R156). -/
def heatedPair (s : State) (pr : Pair) : Prop :=
  ∃ r ∈ s.ctc.tunnel, ∃ g, r.travel < 30000 ∧ garment r.serial s = some g ∧ pairOf g (r.travel / 10) s = some pr

/-- The last member of the tunnel list, where there is one, has moved on by 250 mm (R163). -/
def spaced (s : State) : Prop := ∀ r, s.ctc.tunnel.getLast? = some r → 2500 ≤ r.travel

/-- A speed within the range meets the pair of a claimant `g` and of every member in the heated part (R163). -/
def commonSpeed (g : Garment) (s : State) : Prop :=
  ∃ v, s.prf.cure.sMin ≤ v ∧ v ≤ s.prf.cure.sMax ∧
    ∀ pr, heatedPair s pr ∨ pairOf g 0 s = some pr → pr.lo ≤ v ∧ ∀ h, pr.hi = some h → v ≤ h

/-- The admission test of a claimant `g` fails with the hold reason `why`: the list is full, the last member too near,
or there is no common speed while the heated part holds a garment (R163). -/
def claimFails (g : Garment) (why : Hold) (s : State) : Prop :=
  (why = .tunnelFull ∧ 12 ≤ s.ctc.tunnel.length) ∨
  (why = .spacing ∧ s.ctc.tunnel.length < 12 ∧ ¬ spaced s) ∨
  (why = .cureWait ∧ s.ctc.tunnel.length < 12 ∧ spaced s ∧ ¬ commonSpeed g s ∧ ∃ r ∈ s.ctc.tunnel, r.travel < 30000)

/-- The admission test of a claimant `g` passes, with CURE_RANGE where it is alone and no speed is common (R163). -/
def claimPasses (g : Garment) (range : Bool) (s : State) : Prop :=
  s.ctc.tunnel.length < 12 ∧ spaced s ∧
  ((range = false ∧ commonSpeed g s) ∨
    (range = true ∧ ¬ commonSpeed g s ∧ ∀ r ∈ s.ctc.tunnel, 30000 ≤ r.travel))

/-- `u` where an admission of garment `n` gives it CURE_RANGE, and appends it, if `range` (R166), and the speed is
recomputed (R156). -/
def admittedAt (n : Nat) (range : Bool) (u : State) : State :=
  let w := if range then
      noted (.garment n) (regarment n (fun g => { g with warnings := addTo .cureRange g.warnings }) u)
    else u
  { w with ctc := { w.ctc with selected := selectSpeed w } }

/-- `u` where the re-feed claim of garment `n` is admitted (R165, R185): it joins the back of the tunnel list at 0 mm
and leaves the recure list, and the ENTRY lamp is GO. -/
def refedAt (n : Nat) (range : Bool) (u : State) : State :=
  let w := if u.exs.lamp = .go then u else noted .line u
  admittedAt n range (regarment n (fun g => { g with
      stage := .inTunnel, location := .belt 0, recures := min 3 (g.recures + 1), verification := none, outcome := none,
      route := none }) { w with
    ctc := { u.ctc with refeedClaim := none, tunnel := u.ctc.tunnel ++ [{ serial := n, travel := 0 }] }
    exs := { u.exs with recure := u.exs.recure.filter (· != n), reason := .none, lamp := .go } })

/-- `u` where the UNLOAD claim of garment `n` is admitted (R164): it is the entrant, the gate is HELD, the hold reason
is NONE, and the transfer runs, or waits for the exit from HALTED (R85). -/
def enteredAt (n : Nat) (range : Bool) (u : State) : State :=
  let w := if u.car.unload.hold = .none then u else noted .line u
  admittedAt n range { w with
    ctc := { u.ctc with gateHeld := true, unloadClaim := none, entrant := some n }
    car := { u.car with
      unload := { u.car.unload with hold := .none }
      transfer := if u.car.line = .halted then .stopped else .running } }

/-- `v` is `u` after the gate has tested the re-feed claim (R162, R163): with no claim, or the gate HELD, nothing
happens; a failed test is reported as the reason of the wait (R184), and a passed one admits the claim. -/
def RefeedTested (u v : State) : Prop :=
  (u.ctc.refeedClaim = none ∨ u.ctc.gateHeld = true → v = u) ∧
  ∀ n g, u.ctc.refeedClaim = some n → u.ctc.gateHeld = false → garment n u = some g →
    (∀ why, claimFails g why u → v = { u with exs := { u.exs with reason := why } }) ∧
    ∀ range, claimPasses g range u → v = refedAt n range u

/-- `v` is `u` after the gate has tested the UNLOAD claim (R162, R163): a failed test is the hold reason of UNLOAD, with
the line appended where it changes (R66), and a passed one admits the claim. -/
def UnloadTested (u v : State) : Prop :=
  (u.ctc.unloadClaim = none ∨ u.ctc.gateHeld = true → v = u) ∧
  ∀ n g, u.ctc.unloadClaim = some n → u.ctc.gateHeld = false → garment n u = some g →
    (∀ why, claimFails g why u →
      v = { (if u.car.unload.hold = why then u else noted .line u) with
        car := { u.car with unload := { u.car.unload with hold := why } } }) ∧
    ∀ range, claimPasses g range u → v = enteredAt n range u

/-! ## The index -/

/-- INDEX_START (R67, R69, R73): with the line RUNNING or DRAINING, e-stop inactive, GUARD held IDLE by its owner and
every enabled guard high, the index starts from 0 s where every station is RELEASED, and a PAUSED one resumes with its
run time; with any of these missing no index starts, and a PAUSED one stays PAUSED with its run time. A MOVING one goes
on, or pauses where e-stop is active, an enabled guard is low or the line is HALTED, its run time counted so far. -/
def Obligations.IndexStart : Prop :=
  ∀ s : State,
    let may : Prop := (s.car.line = .running ∨ s.car.line = .draining) ∧ s.pins.estop = false ∧
      ((alarm 1 s).state = .idle ∨ (alarm 1 s).simulated = true) ∧ s.prf.line.guardMask &&& ~~~s.pins.guards = 0
    (may → s.car.index = .none → (∀ st, (station st s).working = false) →
      ∃ t, exec .indexStart s = .next t ∧ Onward s t ∧ t.car.index = .moving ∧ t.car.indexRun = 0 ∧
        t.car.indexFrom = s.clock ∧ t.ptr = s.ptr ∧ t.shf = s.shf ∧ t.ims = s.ims ∧ t.fdp = s.fdp) ∧
    (may → s.car.index = .paused → ∃ t, exec .indexStart s = .next t ∧ Onward s t ∧ t.car.index = .moving ∧
      t.car.indexRun = s.car.indexRun ∧ t.car.indexFrom = s.clock) ∧
    (¬ may ∨ (∃ st, (station st s).working = true) → s.car.index = .none →
      ∃ t, exec .indexStart s = .next t ∧ Onward s t ∧ t.car.index = .none) ∧
    (¬ may → s.car.index = .paused →
      ∃ t, exec .indexStart s = .next t ∧ Onward s t ∧ t.car.index = .paused ∧ t.car.indexRun = s.car.indexRun) ∧
    (s.car.index = .moving →
      let stops : Prop := s.pins.estop = true ∨ s.prf.line.guardMask &&& ~~~s.pins.guards ≠ 0 ∨ s.car.line = .halted
      (¬ stops → ∃ t, exec .indexStart s = .next t ∧ Onward s t ∧ t.car.index = .moving ∧
        t.car.indexRun = s.car.indexRun ∧ t.car.indexFrom = s.car.indexFrom) ∧
      (stops → ∃ t, exec .indexStart s = .next t ∧ Onward s t ∧ t.car.index = .paused ∧
        t.car.indexRun = s.car.indexRun + (s.clock - s.car.indexFrom)))

/-- INDEX_SENSOR (R65, R68): while the index is not MOVING the report is disregarded; else every platen moves on by one
position with its contents, the one at position 7 to position 0, and every station takes its state from its platen. The
index is NONE, and the next one starts at once where every station is RELEASED after the arrivals and R67 lets it; a
DRAINING line with no garment on a platen stops (R72). A garment that arrives at no station keeps its record, and one
that arrives keeps all of it but what its station writes: at PRETREAT it takes its schedule and is tested, or has nothing
to spray and is released (R90, R94); at FLASH it begins the hot wait, the cold wait or the press, or is released without
a dwell (R101); at PRINT it takes its plan, or is released with nothing to print (R109); at UNLOAD it takes stage
AT_UNLOAD and its claim on the gate is tested where the gate is FREE (R161 to R164): it waits with a reason, or is
admitted. Where no garment stands at a station, the work of PTR, SHF or CTC there is as before. The press takes its target
window from the garment at FLASH, else from the one at PRETREAT (R100). The model's choice: the index run time is 0 s once
the index has completed (log entry 37); the line is tested for the stop before the index for its start (log entry 18). -/
def Obligations.IndexSensor : Prop :=
  (∀ s : State, s.car.index ≠ .moving → ∃ t, exec .indexSensor s = .next t ∧ Onward s t) ∧
  ∀ (s : State) (l : List Platen) (p : Platen), s.car.index = .moving → s.car.platens = l ++ [p] →
    ∃ u t, exec .indexSensor s = .next t ∧ Onward (drained u) t ∧ t.car.platens = p :: l ∧
      u.car = { s.car with
        index := .none, indexRun := 0, platens := p :: l, load := u.car.load, pretreat := u.car.pretreat,
        flash := u.car.flash, print := u.car.print, unload := u.car.unload, transfer := u.car.transfer,
        garments := u.car.garments } ∧
      u.ptr = { s.ptr with
        job := u.ptr.job, schedule := u.ptr.schedule, target := u.ptr.target, flashJob := u.ptr.flashJob,
        pressClosed := u.ptr.pressClosed, waitFrom := u.ptr.waitFrom, waitLimit := u.ptr.waitLimit,
        dwellFrom := u.ptr.dwellFrom } ∧
      u.shf = { s.shf with job := u.shf.job, plan := u.shf.plan, begun := u.shf.begun, stroke := u.shf.stroke } ∧
      { u with lnk := s.lnk, car := s.car, ptr := s.ptr, shf := s.shf, ctc := s.ctc, alm := s.alm } = s ∧
      { u.lnk with notices := s.lnk.notices } = s.lnk ∧ { u.alm with alarms := s.alm.alarms } = s.alm ∧
      (∀ i, i ≠ 4 → i ≠ 6 → alarm i t = alarm i s) ∧
      (let clear : Prop := ∀ q ∈ p :: l, ∀ n, q.contents ≠ .garment n
       (s.car.line = .draining ∧ clear → t.car.line = .stopped) ∧
       (¬(s.car.line = .draining ∧ clear) → t.car.line = s.car.line)) ∧
      (let goes : Prop := (t.car.line = .running ∨ t.car.line = .draining) ∧ s.pins.estop = false ∧
         ((alarm 1 s).state = .idle ∨ (alarm 1 s).simulated = true) ∧
         s.prf.line.guardMask &&& ~~~s.pins.guards = 0 ∧ ∀ st, (station st t).working = false
       (goes → t.car.index = .moving ∧ t.car.indexRun = 0 ∧ t.car.indexFrom = s.clock) ∧
       (¬ goes → t.car.index = .none ∧ t.car.indexRun = 0 ∧ t.car.indexFrom = s.car.indexFrom)) ∧
      (∀ n, (∀ st, st ≠ .load → contentsAt st t ≠ .garment n) → garment n t = garment n s) ∧
      (∀ st, st ≠ .load → (∀ n, contentsAt st t ≠ .garment n) →
        station st t = { working := false, hold := .none }) ∧
      ((∀ n, contentsAt .pretreat t ≠ .garment n) →
        u.ptr.job = s.ptr.job ∧ u.ptr.schedule = s.ptr.schedule ∧ alarm 4 t = alarm 4 s) ∧
      ((∀ n, contentsAt .flash t ≠ .garment n) →
        u.ptr.flashJob = s.ptr.flashJob ∧ u.ptr.pressClosed = s.ptr.pressClosed ∧ u.ptr.waitFrom = s.ptr.waitFrom ∧
        u.ptr.waitLimit = s.ptr.waitLimit ∧ u.ptr.dwellFrom = s.ptr.dwellFrom ∧ alarm 6 t = alarm 6 s) ∧
      ((∀ n, contentsAt .print t ≠ .garment n) → u.shf = s.shf) ∧
      (t.car.load.working = false ↔ contentsAt .load t = .empty ∧ s.car.line ≠ .running) ∧
      t.car.load.hold = .none ∧
      (let moves : Prop := s.car.line = .running ∨ s.car.line = .draining
       let alone : Nat → Station → Prop := fun n st => ∀ d, d ≠ st → contentsAt d t ≠ .garment n
       (∀ n g, contentsAt .pretreat t = .garment n → garment n s = some g →
         let c := scheduleOf g.profile (coverageOf g s) s.prf.line
         let idle : Prop := g.profile.basis = .none ∨ Defect.imageGone ∈ g.defects ∨ ∀ x ∈ c.times, x = 0
         let fits : Prop := c.fluid + s.prf.line.tankReserve * 1000000 ≤ s.ptr.tank
         (idle → station .pretreat t = { working := false, hold := .none } ∧ t.ptr.job = .none ∧ t.ptr.schedule = none ∧
           (alone n .pretreat → garment n t = some { g with dose := 0, stage := .pretreated })) ∧
         (¬ idle → alone n .pretreat → garment n t = some g) ∧
         (¬ idle → fits → t.ptr.schedule = some c ∧ station .pretreat t = { working := true, hold := .none } ∧
           (alarm 4 t).present = false ∧ (moves ∧ s.ptr.bar = .parked → t.ptr.job = .spraying ∧ t.ptr.bar = .out) ∧
           (¬(moves ∧ s.ptr.bar = .parked) → t.ptr.job = .waiting ∧ t.ptr.bar = s.ptr.bar)) ∧
         (¬ idle → ¬ fits → Shaped s → t.ptr.schedule = some c ∧ t.ptr.job = .held ∧
           station .pretreat t = { working := true, hold := .fluidLow } ∧ (alarm 4 t).present = true)) ∧
       (∀ n g, contentsAt .flash t = .garment n → garment n s = some g → s.ptr.flashJob = .none →
         t.ptr.target = some (g.profile.tfMin, g.profile.tfMax) ∧
         (g.profile.dwell = 0 → station .flash t = { working := false, hold := .none } ∧ t.ptr.flashJob = .none ∧
           (alone n .flash → garment n t = some { g with dwell := 0, stage := .flashed })) ∧
         (0 < g.profile.dwell → FlashDecided g s t ∧ (alone n .flash → garment n t = some g))) ∧
       (∀ n g, contentsAt .pretreat t = .garment n → garment n s = some g → (∀ m, contentsAt .flash t ≠ .garment m) →
         t.ptr.target = some (g.profile.tfMin, g.profile.tfMax)) ∧
       ((∀ m, contentsAt .flash t ≠ .garment m) → (∀ m, contentsAt .pretreat t ≠ .garment m) →
         t.ptr.target = s.ptr.target) ∧
       (∀ n g, contentsAt .print t = .garment n → garment n s = some g →
         ((planOf g s).strokes = [] → station .print t = { working := false, hold := .none } ∧ t.shf.job = .none ∧
           (alone n .print → garment n t = some { g with stage := .printed })) ∧
         ((planOf g s).strokes ≠ [] → station .print t = { working := true, hold := .none } ∧
           t.shf.plan = planOf g s ∧ (alone n .print → garment n t = some g) ∧
           (moves ∧ s.shf.shuttle = .home → t.shf.begun = true ∧ (t.shf.job = .spit ∨ t.shf.job = .stroke)) ∧
           (¬(moves ∧ s.shf.shuttle = .home) → t.shf.begun = false ∧ t.shf.job = .waiting))) ∧
       ((∀ n, contentsAt .unload t ≠ .garment n) → u.ctc = s.ctc ∧ t.car.transfer = s.car.transfer) ∧
       ∀ n, contentsAt .unload t = .garment n → t.car.unload.working = true ∧
         ∀ g, garment n s = some g → ((garment n t).map Garment.stage = some .atUnload) ∧
           (t.ctc.unloadClaim = some n ∨ t.ctc.entrant = some n ∧ t.ctc.gateHeld = true) ∧
           (alone n .unload → ∃ x v, UnloadTested x v ∧ garment n x = some { g with stage := .atUnload } ∧
             (∀ m, (∀ st, st ≠ .load → contentsAt st t ≠ .garment m) → garment m x = garment m s) ∧
             x.ctc = { s.ctc with unloadClaim := some n } ∧ x.prf = s.prf ∧ x.car.line = s.car.line ∧
             x.car.transfer = s.car.transfer ∧ station .unload x = { working := true, hold := .none } ∧
             t.ctc = v.ctc ∧ garment n t = garment n v ∧ station .unload t = station .unload v ∧
             t.car.transfer = v.car.transfer))

/-! ## The LOAD station and the transfer arm -/

/-- The queue entry `e` is unit `u` of order `o`, of item `it`, whose SKU is `sku`. -/
def demanded (sku : Nat) (s : State) (e : QueueEntry) (u : UnitRec) (o : Order) (it : Item) : Prop :=
  tabGet e.seq s.ord.units = some u ∧ tabGet u.slot s.ord.orders = some o ∧ o.items[u.item]? = some it ∧ it.sku = sku

/-- LOAD_SCAN (R12, R13, R81, R82, R152): ignored unless the line is RUNNING; refused by the first step of R12 that
applies, with the REFUSED mark and the last scan result; else the first unit of the pick queue with the scanned SKU
becomes IN_LINE and a garment record, with the next free serial, a copy of the profile and its dose limits, is bound to
the EMPTY platen. The model's choice: the command is the CR of the record in the LOAD buffer (log entry 14); the order
of the references appended at one event (log entry 11). -/
def Obligations.LoadScan : Prop :=
  ∀ (s : State) (chars : List Byte), s.alm.load = { buffer := chars, discarding := false } → chars ≠ [] →
    let u : State := { s with alm := { s.alm with load := { buffer := [], discarding := false } } }
    let digits : Prop := 1 ≤ chars.length ∧ chars.length ≤ 12 ∧ ∀ c ∈ chars, 0x30 ≤ c.toNat ∧ c.toNat ≤ 0x39
    let sku : Nat := chars.foldl (fun a c => a * 10 + (c.toNat - 0x30)) 0
    let ready : Prop := s.car.load.working = true ∧ contentsAt .load s = .empty ∧ s.car.index = .none
    let refusedFor : ScanResult → State := fun r =>
      { (if s.car.lastScan = some r then u else noted .line u) with
        car := { s.car with refused := true, lastScan := some r } }
    (s.car.line ≠ .running → ∃ t, exec .loadScan s = .next t ∧ Onward u t) ∧
    (s.car.line = .running → ¬ digits → ∃ t, exec .loadScan s = .next t ∧ Onward (refusedFor .badSku) t) ∧
    (s.car.line = .running → digits → ¬ ready →
      ∃ t, exec .loadScan s = .next t ∧ Onward (refusedFor .platenBusy) t) ∧
    (s.car.line = .running → digits → ready → 32 ≤ s.car.garments.length →
      ∃ t, exec .loadScan s = .next t ∧ Onward (refusedFor .tableFull) t) ∧
    (s.car.line = .running → digits → ready → s.car.garments.length < 32 →
      (∀ e ∈ s.ord.queue, ∀ un o it, ¬ demanded sku s e un o it) →
      ∃ t, exec .loadScan s = .next t ∧ Onward (refusedFor .noDemand) t) ∧
    ∀ pre e post un o it p k im cov pl rest, s.car.line = .running → digits → ready → s.car.garments.length < 32 →
      s.ord.queue = pre ++ e :: post → (∀ d ∈ pre, ∀ un o it, ¬ demanded sku s d un o it) →
      demanded sku s e un o it → un.state = .queued → s.prf.profiles[it.profile]? = some p →
      imageOf it.image s = some (k, im) → im.coverage = some cov → s.car.platens = pl :: rest →
      ∃ t n j, exec .loadScan s = .next t ∧ n = (s.car.lastSerial + j) % 65535 + 1 ∧ garment n s = none ∧
        (∀ i < j, garment ((s.car.lastSerial + i) % 65535 + 1) s ≠ none) ∧
        Onward { u with
          lnk := { u.lnk with notices :=
            let l := noteIn (.order un.slot) u.lnk.notices
            if s.car.lastScan = some .bound then l else noteIn .line l }
          ord := { s.ord with
            units := tabMap e.seq (fun v => { v with state := .inLine }) s.ord.units
            orders := tabMap un.slot (fun o => { o with counts := { o.counts with
              queued := o.counts.queued - 1, inLine := o.counts.inLine + 1 } }) s.ord.orders
            queue := s.ord.queue.filter fun d => d.seq != e.seq }
          ims := { s.ims with images := tabMap k (fun i => { i with
            queuedRefs := i.queuedRefs - 1, garmentRefs := i.garmentRefs + 1 }) s.ims.images }
          car := { s.car with
            refused := false, lastScan := some .bound, lastSerial := n,
            platens := { pl with contents := .garment n } :: rest,
            garments := tabSet n
              { order := o.id, item := un.item, index := un.index, sku := it.sku, image := some it.image, profile := p,
                stage := .bound, location := .platen pl.number, defects := [],
                warnings := if p.dMax ≤ p.dBase + cov.inkK * p.kInk / 256 then [.heavy] else [],
                dose := 0, dwell := 0, strokes := [], d := 0,
                dReq := min (p.dBase + cov.inkK * p.kInk / 256) p.dMax, dMax := p.dMax, recures := 0,
                verification := none, outcome := none, route := none } s.car.garments } } t

/-- FOOTSWITCH_PRESS (R76): on a WORKING LOAD station of a moving line an UNKNOWN platen becomes EMPTY, an EMPTY one is
released, a garment is released with stage LOADED; every press clears the REFUSED mark, and elsewhere that is all.
SKIP_PRESS (R14, R77) on a WORKING LOAD station that holds a garment: its image reference is returned, the record is
freed, the platen becomes EMPTY, and the unit is QUEUED again, in the pick queue and with a reference on its image, or
waits for its image, or leaves a CANCELLING order, which its last IN_LINE unit retires; elsewhere nothing happens. The
model's choice: the stop of a DRAINING line is tested before the index it would otherwise start (log entry 18); the
order is appended before a bin that its retirement frees, and both before the line (log entry 11); and a CANCELLING
order is appended when the unit leaves it (log entry 21). -/
def Obligations.OperatorPresses : Prop :=
  (∀ s : State,
    let u : State := { s with car := { s.car with refused := false } }
    let acts : Prop := (s.car.line = .running ∨ s.car.line = .draining) ∧ s.car.load.working = true ∧
      s.car.index = .none
    (¬ acts → ∃ t, exec .footswitchPress s = .next t ∧ Onward u t) ∧
    (acts → contentsAt .load s = .unknown → ∃ t, exec .footswitchPress s = .next t ∧
      Onward (if s.car.line = .running then holding .load .empty u else freed .load (holding .load .empty u)) t) ∧
    (acts → contentsAt .load s = .empty → ∃ t, exec .footswitchPress s = .next t ∧ Onward (freed .load u) t) ∧
    ∀ n, acts → contentsAt .load s = .garment n → ∃ t, exec .footswitchPress s = .next t ∧
      Onward (freed .load (regarment n (fun g => { g with stage := .loaded }) u)) t) ∧
  ∀ s : State,
    ((s.car.load.working = false ∨ s.car.index ≠ .none ∨ ∀ n, contentsAt .load s ≠ .garment n) →
      ∃ t, exec .skipPress s = .next t ∧ Onward s t) ∧
    ∀ n g slot seq o un it, Keyed s → s.car.load.working = true → s.car.index = .none →
      contentsAt .load s = .garment n → garment n s = some g → orderOf g.order s = some (slot, o) →
      unitSeq slot g.item g.index s = some seq → tabGet seq s.ord.units = some un → un.state = .inLine →
      o.items[un.item]? = some it →
      let images : List (Nat × Image) := match g.image.bind fun id => imageOf id s with
        | some (k, _) => if beforePrinted g = true then
            tabMap k (fun i => { i with garmentRefs := i.garmentRefs - 1 }) s.ims.images else s.ims.images
        | none => s.ims.images
      let back : State := { s with ims := { s.ims with images := images } }
      let v : State := if o.state = .cancelling then unitLeft slot seq o back
        else unitBack slot seq un.cls (imageReady it.image s && !decide (Defect.imageGone ∈ g.defects)) it.image id back
      let w : State := holding .load .empty { v with car := { v.car with garments := tabErase n s.car.garments } }
      ∃ t, exec .skipPress s = .next t ∧ Onward (if s.car.line = .draining then drained (freed .load w) else w) t

/-- TRANSFER_COMPLETE (R85, R86, R164): disregarded while no transfer is RUNNING; else the entrant leaves the platen and
joins the back of the tunnel list at 0 mm with stage IN_TUNNEL, the gate is FREE, UNLOAD is RELEASED, and a DRAINING
line may stop (R72). The model's choice: that stop is tested before the index that the RELEASED stations would otherwise
start (log entry 18). -/
def Obligations.TransferCompletes : Prop :=
  (∀ s : State, s.car.transfer ≠ .running → ∃ t, exec .transferComplete s = .next t ∧ Onward s t) ∧
  ∀ (s : State) (n : Nat), s.car.transfer = .running → s.ctc.entrant = some n →
    ∃ t, exec .transferComplete s = .next t ∧ Onward (drained (freed .unload
      (regarment n (fun g => { g with stage := .inTunnel, location := .belt 0 }) (holding .unload .empty { s with
        car := { s.car with transfer := .none }
        ctc := { s.ctc with gateHeld := false, entrant := none,
                            tunnel := s.ctc.tunnel ++ [{ serial := n, travel := 0 }] } })))) t

/-! ## Alarms, inputs and scanner lines -/

/-- ALARM_ACK (R199): RANGE for an instance that does not exist, STALE for another count; else by state and sense
nothing changes, or Acknowledged is set, or the instance becomes IDLE with SIMULATED cleared. A hot wait whose FLASH_HOT
becomes IDLE, LATCHED before or, under the sense EDGE, still ACTIVE, is decided again outside HALTED: by the latest
reading the press closes, a cold wait begins with a fresh timer, or a new hot wait begins, with a new onset where the
condition was absent (R103); in HALTED it stays, and the resume decides it (R105). A STOPPED shuttle whose ENCODER becomes IDLE homes: with a HELD
print once the line moves, its hold reason NONE, and with none outside HALTED (R121). DRILL_STEP (R207, R208): STATE
unless the line is IDLE or STOPPED; else the step advances, and the instances it names that are IDLE take a simulated
onset, or at step 0 every SIMULATED instance becomes IDLE; nothing else changes. The model's choice: the order of the
references appended at one event (log entry 11). -/
def Obligations.AcknowledgementAndDrill : Prop :=
  (∀ (tag : Byte) (kind number count : Nat) (s : State), Reads s →
    (alarmIndex kind number = none →
      exec (.alarmAck tag kind number count) s = .next (replied 0x51 tag .range [] s)) ∧
    ∀ i, alarmIndex kind number = some i →
      ((alarm i s).count ≠ count → exec (.alarmAck tag kind number count) s = .next (replied 0x51 tag .stale [] s)) ∧
      ((alarm i s).count = count →
        ((alarm i s).state = .idle ∨ (alarm i s).state = .active ∧ (alarm i s).acked = true ∧ senseAt i s = .edgeLevel →
          ∃ t, exec (.alarmAck tag kind number count) s = .next t ∧ Onward (replied 0x51 tag .ok [] s) t) ∧
        ((alarm i s).state = .active → (alarm i s).acked = false → senseAt i s = .edgeLevel →
          ∃ t, exec (.alarmAck tag kind number count) s = .next t ∧
            Onward (replied 0x51 tag .ok [] (alarmed i (fun a => { a with acked := true }) s)) t) ∧
        ((i = 3 → s.shf.shuttle ≠ .stopped) → (i = 6 → s.ptr.flashJob ≠ .hot ∨ (alarm 6 s).simulated = true ∨
            s.car.line ≠ .halted ∧ (s.car.flash.working = false ∨ s.car.index ≠ .none ∨
              ∀ n, contentsAt .flash s ≠ .garment n)) →
          ((alarm i s).state = .active → senseAt i s = .edge →
            ∃ t, exec (.alarmAck tag kind number count) s = .next t ∧ Onward (replied 0x51 tag .ok []
              (alarmed i (fun a => { a with state := .idle, acked := false, simulated := false }) s)) t) ∧
          ((alarm i s).state = .latched →
            ∃ t, exec (.alarmAck tag kind number count) s = .next t ∧ Onward (replied 0x51 tag .ok []
              (alarmed i (fun a => { a with state := .idle, simulated := false }) s)) t))) ∧
      (i = 6 → (alarm 6 s).count = count → (alarm 6 s).state = .latched ∨
          (alarm 6 s).state = .active ∧ senseAt 6 s = .edge → (alarm 6 s).simulated = false →
        s.ptr.flashJob = .hot → s.car.line = .halted →
        let acked : State := alarmed 6 (fun a => { a with
          state := .idle, acked := if a.state = .active then false else a.acked }) s
        ∃ t, exec (.alarmAck tag kind number count) s = .next t ∧
          Onward (replied 0x51 tag .ok [] { acked with ptr := { acked.ptr with hotOver := true } }) t) ∧
      (∀ n g, i = 6 → Shaped s → (alarm 6 s).count = count →
        (alarm 6 s).state = .latched ∨ (alarm 6 s).state = .active ∧ senseAt 6 s = .edge → (alarm 6 s).simulated = false →
        s.ptr.flashJob = .hot → s.car.line ≠ .halted → s.car.flash.working = true → s.car.index = .none →
        contentsAt .flash s = .garment n → garment n s = some g → 0 < g.profile.dwell →
        let bad : Prop := s.ptr.flashFaulted = true ∨ g.profile.tfMax < s.ptr.flashReading
        let acked : State := alarmed 6 (fun a => { a with
          state := .idle, acked := if a.state = .active then false else a.acked }) s
        let good : State := if (alarm 6 s).present = true then endedAt 6 acked else acked
        (bad → ∃ t, exec (.alarmAck tag kind number count) s = .next t ∧ Onward (replied 0x51 tag .ok []
          ((if (alarm 6 s).present = true then id else alarmed 6 Alarm.begun)
            (setHold .flash .flashHot { acked with ptr := { acked.ptr with waitFrom := none } }))) t) ∧
        (¬ bad → s.ptr.flashReading < g.profile.tfMin →
          ∃ t, exec (.alarmAck tag kind number count) s = .next t ∧ Onward (replied 0x51 tag .ok []
            (setHold .flash .preheat { good with ptr := { good.ptr with
              flashJob := .cold, waitFrom := some s.clock, waitLimit := s.prf.line.flashWait } })) t) ∧
        (¬ bad → g.profile.tfMin ≤ s.ptr.flashReading →
          ∃ t, exec (.alarmAck tag kind number count) s = .next t ∧ Onward (replied 0x51 tag .ok []
            (setHold .flash .none { good with ptr := { good.ptr with
              pressClosed := true, flashJob := .pressing, waitFrom := none, dwellFrom := some s.clock } })) t)) ∧
      (i = 3 → (alarm 3 s).count = count → s.shf.shuttle = .stopped →
        let w := alarmed 3 (fun a => { a with state := .idle, simulated := false }) s
        let homing : State → State := fun u => { u with shf := { u.shf with
          shuttle := .homing, speed := s.prf.line.shuttleSpeed, noSignal := some s.clock } }
        let moves : Prop := s.car.line = .running ∨ s.car.line = .draining
        ((alarm 3 s).state = .latched →
          ((alarm 3 s).simulated = true ∨ (s.shf.job = .held ∧ ¬ moves) ∨
              ((s.shf.job = .none ∨ s.shf.job = .waiting) ∧ s.car.line = .halted) →
            ∃ t, exec (.alarmAck tag kind number count) s = .next t ∧ Onward (replied 0x51 tag .ok [] w) t) ∧
          (Shaped s → (alarm 3 s).simulated = false → s.shf.job = .held → moves →
            ∃ t, exec (.alarmAck tag kind number count) s = .next t ∧
              Onward (replied 0x51 tag .ok [] (homing (setHold .print .none w))) t) ∧
          (Shaped s → (alarm 3 s).simulated = false → s.shf.job = .none ∨ s.shf.job = .waiting → s.car.line ≠ .halted →
            ∃ t, exec (.alarmAck tag kind number count) s = .next t ∧
              Onward (replied 0x51 tag .ok [] (homing w)) t)))) ∧
  ∀ (tag : Byte) (s : State), Reads s →
    let named : List Nat := match s.alm.drill with
      | 0 => [4, 10] | 1 => [1, 3] | 2 => [8, 17] | 4 => [16, 6] | 5 => [18, 21] | 6 => [15, 5] | _ => []
    (¬(s.car.line = .idle ∨ s.car.line = .stopped) →
      exec (.drillStep tag) s = .next (replied 0x52 tag .state [] s)) ∧
    (s.car.line = .idle ∨ s.car.line = .stopped → s.alm.drill ≤ 7 → Shaped s →
      ∃ t, exec (.drillStep tag) s = .next t ∧ t.alm.drill = (s.alm.drill + 1) % 8 ∧
        (∀ i < 22, alarm i t =
          if s.alm.drill = 7 then
            if (alarm i s).simulated = true then
              { alarm i s with state := .idle, acked := false, simulated := false }
            else alarm i s
          else if i ∈ named ∧ (alarm i s).state = .idle then
            { alarm i s with state := .latched, acked := false, count := min 255 ((alarm i s).count + 1),
                             simulated := true }
          else alarm i s) ∧
        t.lnk.reply = some { kind := 0xD2, tag := tag, body := [0x00] } ∧
        { t with lnk := s.lnk, alm := s.alm } = s ∧
        { t.alm with alarms := s.alm.alarms, drill := s.alm.drill } = s.alm)

/-- ESTOP_CHANGE and GUARD_CHANGE (R204, R205, R69, R201): a change from absent to present is an onset, one from present
to absent the condition's end, a repeated report neither; the ESTOP onset halts a line that is RUNNING, DRAINING or
STOPPED, with its effects on the work at the stations (R98, R105, R122), and an enabled guard that is low pauses a
MOVING index with its run time kept. The model's choice, in that halt: the job and the hold reason after a cold wait are
NONE (log entry 22); the counters and the framer state of an aborted stroke stay (log entry 34). -/
def Obligations.SafetyInputs : Prop :=
  (∀ s : State,
    let u : Bool → State := fun a => { s with pins := { s.pins with estop := a } }
    ((alarm 0 s).present = false →
      (s.car.line = .running ∨ s.car.line = .draining ∨ s.car.line = .stopped → Shaped s →
        ∃ t, exec (.estopChange true) s = .next t ∧ HaltedFrom s t ∧ HaltedWork s t ∧
          t.pins = (u true).pins ∧ alarm 0 t = (alarm 0 s).begun) ∧
      (s.car.line = .idle ∨ s.car.line = .halted →
        ∃ t, exec (.estopChange true) s = .next t ∧ Onward (alarmed 0 Alarm.begun (u true)) t) ∧
      ∃ t, exec (.estopChange false) s = .next t ∧ Onward (u false) t) ∧
    ((alarm 0 s).present = true →
      (∃ t, exec (.estopChange true) s = .next t ∧ Onward (u true) t) ∧
      ∃ t, exec (.estopChange false) s = .next t ∧ Onward (endedAt 0 (u false)) t)) ∧
  ∀ (s : State) (g : Nat) (high : Bool), 1 ≤ g → g ≤ 4 →
    let guards : BitVec 4 := if high then s.pins.guards ||| 1#4 <<< (g - 1) else s.pins.guards &&& ~~~(1#4 <<< (g - 1))
    let u : State := { s with pins := { s.pins with guards := guards } }
    let low : Prop := s.prf.line.guardMask &&& ~~~guards ≠ 0
    (low → (alarm 1 s).present = false →
      ∃ t, exec (.guardChange g high) s = .next t ∧ Onward (alarmed 1 Alarm.begun u) t) ∧
    (¬ low → (alarm 1 s).present = true →
      ∃ t, exec (.guardChange g high) s = .next t ∧ Onward (endedAt 1 u) t) ∧
    (((alarm 1 s).present = true ↔ low) → ∃ t, exec (.guardChange g high) s = .next t ∧ Onward u t) ∧
    (low → s.car.index = .moving → ∃ t, exec (.guardChange g high) s = .next t ∧ t.car.index = .paused ∧
      t.car.indexRun = s.car.indexRun + (s.clock - s.car.indexFrom))

/-- The scanner lines (R209): LF is ignored; CR ends a discarded record, and hands on a complete one as LOAD_SCAN,
ENTRY_RECORD and EXIT_RECORD do; any other character joins a buffer below 32, makes a record over-long at 32, and is
ignored while discarding. An over-long record and a framing fault are one momentary SCANNER onset of that line. The
model's choice: the three record commands are the CR of their lines (log entry 14). -/
def Obligations.ScannerLines : Prop :=
  (∀ s : State, exec (.scannerCharacter .load 0x0D) s = exec .loadScan s ∧
    exec (.scannerCharacter .entry 0x0D) s = exec .entryRecord s ∧
    exec (.scannerCharacter .exit 0x0D) s = exec .exitRecord s) ∧
  ∀ (l : ScanLine) (c : Byte) (s : State),
    let k : Scanner := match l with | .load => s.alm.load | .entry => s.alm.entry | .exit => s.alm.exit
    let u : Scanner → State := fun k => { s with alm := match l with
      | .load => { s.alm with load := k } | .entry => { s.alm with entry := k } | .exit => { s.alm with exit := k } }
    let i : Nat := match l with | .load => 19 | .entry => 20 | .exit => 21
    exec (.scannerOverlong l c) s = exec (.scannerCharacter l c) s ∧
    (c = 0x0A → ∃ t, exec (.scannerCharacter l c) s = .next t ∧ Onward s t) ∧
    (c = 0x0D → k.discarding = true ∨ k.buffer = [] →
      ∃ t, exec (.scannerCharacter l c) s = .next t ∧ Onward (u { buffer := [], discarding := false }) t) ∧
    (c ≠ 0x0A → c ≠ 0x0D → k.discarding = true → ∃ t, exec (.scannerCharacter l c) s = .next t ∧ Onward s t) ∧
    (c ≠ 0x0A → c ≠ 0x0D → k.discarding = false → k.buffer.length < 32 →
      ∃ t, exec (.scannerCharacter l c) s = .next t ∧
        Onward (u { buffer := k.buffer ++ [c], discarding := false }) t) ∧
    (c ≠ 0x0A → c ≠ 0x0D → k.discarding = false → 32 ≤ k.buffer.length →
      ∃ t, exec (.scannerCharacter l c) s = .next t ∧
        Onward (alarmed i Alarm.passed (u { buffer := [], discarding := true })) t) ∧
    (k.discarding = true → ∃ t, exec (.scannerFramingFault l) s = .next t ∧ Onward s t) ∧
    (k.discarding = false → ∃ t, exec (.scannerFramingFault l) s = .next t ∧
      Onward (alarmed i Alarm.passed (u { buffer := [], discarding := true })) t)

/-! ## PRETREAT and FLASH -/

/-- The cell times of a schedule: the ratio of the basis units to their full scale (R91), and from it the time, with the
lane's delay and the row window (R89, R92); a schedule holds one time for each lane and row, and their fluid (R93). -/
def Obligations.CellTimes : Prop :=
  (∀ c : Cell, cellRatio .white c = c.white * 1000 / 864000 ∧
    cellRatio .all c = (c.white + c.colour) * 1000 / 4320000 ∧
    (c.white ≤ 864000 → cellRatio .white c ≤ 1000) ∧ (c.white + c.colour ≤ 4320000 → cellRatio .all c ≤ 1000) ∧
    (c.white = 0 → cellRatio .white c = 0) ∧ (c.white = 0 → c.colour = 0 → cellRatio .all c = 0)) ∧
  (∀ (p : Profile) (window d : Nat) (c : Cell),
    (cellRatio p.basis c < p.pFloor → cellTime p window d c = 0) ∧
    (window ≤ d → cellTime p window d c = 0) ∧
    (p.pFloor ≤ cellRatio p.basis c → d < window →
      let t := max (p.tBase + p.tGain * cellRatio p.basis c / 1000) p.tMin
      cellTime p window d c = min t (min p.tMax (window - d))) ∧
    (p.tMax ≤ 4000 → cellTime p window d c ≤ 4000) ∧ (d < window → cellTime p window d c ≤ window - d) ∧
    (p.tBase ≤ 4000 → p.tGain ≤ 4000 → c.white ≤ 864000 → c.white + c.colour ≤ 4320000 →
      p.tBase + p.tGain * cellRatio p.basis c / 1000 ≤ 8000)) ∧
  ∀ (p : Profile) (cov : Coverage) (l : LineSettings) (lane row delay : Nat), lane < 8 → row < 13 →
    l.laneDelays[lane]? = some delay →
    (scheduleOf p cov l).times.length = 104 ∧
    (scheduleOf p cov l).time lane row =
      cellTime p (400000 / l.barSpeed) (delay * (l.laneMult + 1)) (cov.cell lane row) ∧
    (scheduleOf p cov l).fluid = (scheduleOf p cov l).times.sum * l.flow

/-- PRETREAT: FLUID_FILLED sets the estimate to the capacity, ends FLUID_LOW and makes the test (R94, R95); a traverse
starts, opens and closes its valves, goes on row by row, and ends with the fluid spent, the dose written and the station
RELEASED (R89, R96, R97); the bar's return ends PARKED, and a garment that is held or waits is tested again (R94). An
event with nothing to act on changes nothing. The model's choice: the order of the references appended at one event (log
entry 11); the end of row window 12 is the traverse's end, and an expiry asserts that its time has come (log entry 9).
-/
def Obligations.Pretreatment : Prop :=
  (∀ (tag : Byte) (s : State), Reads s →
    let u : State := { s with ptr := { s.ptr with tank := s.prf.line.tankCap * 1000000 } }
    let w : State := if (alarm 4 s).present = true then endedAt 4 u else u
    (s.ptr.job ≠ .held → s.ptr.job ≠ .waiting →
      ∃ t, exec (.fluidFilled tag) s = .next t ∧ Onward (replied 0x40 tag .ok [] w) t) ∧
    ∀ c, s.ptr.job = .held ∨ s.ptr.job = .waiting → s.ptr.schedule = some c →
      (c.fluid + s.prf.line.tankReserve * 1000000 ≤ s.prf.line.tankCap * 1000000 →
        ∃ t, exec (.fluidFilled tag) s = .next t ∧ Onward (replied 0x40 tag .ok []
          (setHold .pretreat .none { w with ptr := { w.ptr with job := .waiting } })) t) ∧
      (s.prf.line.tankCap * 1000000 < c.fluid + s.prf.line.tankReserve * 1000000 →
        ∃ t, exec (.fluidFilled tag) s = .next t ∧ Onward (replied 0x40 tag .ok []
          (alarmed 4 Alarm.begun (setHold .pretreat .fluidLow { w with ptr := { w.ptr with job := .held } }))) t)) ∧
  (∀ s : State,
    let may : Prop := s.ptr.job = .waiting ∧ (s.car.line = .running ∨ s.car.line = .draining) ∧ s.ptr.bar = .parked
    (∀ c, may → s.ptr.schedule = some c → ∃ t, exec .traverseStart s = .next t ∧ Sent { s with ptr := { s.ptr with
      bar := .out, barTravel := 0, barFrom := some s.clock, job := .spraying, row := 0,
      valves := (List.range 8).map fun lane =>
        if (c.times[13 * lane]?).getD 0 = 0 then .closed else .waiting } } t) ∧
    (¬ may ∨ s.ptr.schedule = none → ∃ t, exec .traverseStart s = .next t ∧ Sent s t)) ∧
  (∀ (s : State) (lane : Nat),
    (s.ptr.job = .spraying → s.ptr.valves[lane]? = some .waiting → exec (.valveDelayExpiry lane) s =
      .next { s with ptr := { s.ptr with valves := s.ptr.valves.set lane (.open_ s.clock) } }) ∧
    (¬(s.ptr.job = .spraying ∧ s.ptr.valves[lane]? = some .waiting) → exec (.valveDelayExpiry lane) s = .next s) ∧
    (∀ since, s.ptr.job = .spraying → s.ptr.valves[lane]? = some (.open_ since) → exec (.valveCloseExpiry lane) s =
      .next { s with ptr := { s.ptr with valves := s.ptr.valves.set lane .closed } }) ∧
    (¬(s.ptr.job = .spraying ∧ ∃ since, s.ptr.valves[lane]? = some (.open_ since)) →
      exec (.valveCloseExpiry lane) s = .next s)) ∧
  (∀ (s : State) (c : Schedule),
    (s.ptr.schedule = some c → s.ptr.job = .spraying → s.ptr.row < 12 →
      ∃ t, exec .rowWindowEnd s = .next t ∧ Onward { s with ptr := { s.ptr with
        row := s.ptr.row + 1
        valves := (List.range 8).map fun lane =>
          if (c.times[13 * lane + s.ptr.row + 1]?).getD 0 = 0 then .closed else .waiting } } t) ∧
    (s.ptr.schedule = some c → s.ptr.job = .spraying → 12 ≤ s.ptr.row → exec .rowWindowEnd s = exec .traverseEnd s) ∧
    (s.ptr.job ≠ .spraying → (∃ t, exec .rowWindowEnd s = .next t ∧ Onward s t) ∧
      ∃ t, exec .traverseEnd s = .next t ∧ Onward s t) ∧
    ∀ n, s.ptr.schedule = some c → s.ptr.job = .spraying → s.car.index = .none → contentsAt .pretreat s = .garment n →
      ∃ t, exec .traverseEnd s = .next t ∧ Onward (freed .pretreat
        (regarment n (fun g => { g with dose := min 65535 (c.fluid / 1000), stage := .pretreated }) { s with
          ptr := { s.ptr with tank := s.ptr.tank - c.fluid, bar := .back, barTravel := 13 * c.window * 100,
                              barFrom := some s.clock, job := .none, schedule := none, row := 0,
                              valves := List.replicate 8 .closed } })) t) ∧
  ∀ s : State,
    (s.ptr.bar = .back → s.ptr.barFrom.isSome = true → s.ptr.job ≠ .held → s.ptr.job ≠ .waiting →
      ∃ t, exec .barReturnEnd s = .next t ∧
        Onward { s with ptr := { s.ptr with bar := .parked, barTravel := 0, barFrom := none } } t) ∧
    (∀ c, s.ptr.bar = .back → s.ptr.barFrom.isSome = true → s.ptr.job = .held ∨ s.ptr.job = .waiting →
      s.ptr.schedule = some c → ∃ t, exec .barReturnEnd s = .next t ∧ Onward
        (fluidTested c { s with ptr := { s.ptr with bar := .parked, barTravel := 0, barFrom := none } }) t) ∧
    (¬(s.ptr.bar = .back ∧ s.ptr.barFrom.isSome = true) → ∃ t, exec .barReturnEnd s = .next t ∧ Onward s t)

/-- FLASH: a sample is recorded and drives the heater (R100); in the cold wait it closes the press, goes on waiting, or
begins the hot wait with an onset of FLASH_HOT (R102, R103); in the hot wait the condition follows the reading, and once
it has ended and FLASH_HOT is IDLE, outside HALTED, the press closes or the cold wait begins (R103), and in HALTED the
wait is over and the garment stays HOT until the resume decides it (R105); the wait limit
closes the press with UNDERDRIED and one onset of FLASH_COLD (R102); the dwell's end opens it and releases the garment
with its dwell (R104). The model's choice: the order of the references appended at one event (log entry 11); an expiry
asserts that its time has come (log entry 9); a wait whose FLASH_HOT was IDLE before the halt is over so too (log entry
42). -/
def Obligations.FlashPress : Prop :=
  (∀ (r : Reading) (s : State), Shaped s → (alarm 6 s).present = false →
    let bad : Prop := r.fault = true ∨ 3000 < r.raw
    let u : State := { s with ptr := { s.ptr with
      flashReading := r.raw
      flashFaulted := r.fault || decide (3000 < r.raw)
      heater := match s.ptr.target with
        | some (lo, hi) => decide ((s.car.line = .running ∨ s.car.line = .draining ∨ s.car.line = .stopped) ∧
            r.fault = false ∧ r.raw ≤ 3000 ∧ r.raw < (lo + hi) / 2)
        | none => false } }
    (s.ptr.flashJob = .pressing ∨ s.ptr.flashJob = .cut ∨ s.car.flash.working = false →
      ∃ t, exec (.flashSample r) s = .next t ∧ Onward u t) ∧
    ∀ n g, s.ptr.flashJob = .cold → s.car.flash.working = true → s.car.index = .none →
      contentsAt .flash s = .garment n → garment n s = some g → 0 < g.profile.dwell →
      (¬ bad → g.profile.tfMin ≤ r.raw → r.raw ≤ g.profile.tfMax →
        ∃ t, exec (.flashSample r) s = .next t ∧ Onward (setHold .flash .none { u with ptr := { u.ptr with
          pressClosed := true, flashJob := .pressing, waitFrom := none, dwellFrom := some s.clock } }) t) ∧
      (¬ bad → r.raw < g.profile.tfMin → r.raw ≤ g.profile.tfMax →
        ∃ t, exec (.flashSample r) s = .next t ∧ Onward u t) ∧
      (bad ∨ g.profile.tfMax < r.raw →
        ∃ t, exec (.flashSample r) s = .next t ∧ Onward (setHold .flash .flashHot (alarmed 6 Alarm.begun { u with
          ptr := { u.ptr with flashJob := .hot, waitFrom := none } })) t)) ∧
  (∀ (r : Reading) (s : State) (n : Nat) (g : Garment), Shaped s → s.ptr.flashJob = .hot → s.car.flash.working = true →
    s.car.index = .none → contentsAt .flash s = .garment n → garment n s = some g → 0 < g.profile.dwell →
    let bad : Prop := r.fault = true ∨ 3000 < r.raw ∨ g.profile.tfMax < r.raw
    let u : State := { s with ptr := { s.ptr with
      flashReading := r.raw
      flashFaulted := r.fault || decide (3000 < r.raw)
      heater := match s.ptr.target with
        | some (lo, hi) => decide ((s.car.line = .running ∨ s.car.line = .draining ∨ s.car.line = .stopped) ∧
            r.fault = false ∧ r.raw ≤ 3000 ∧ r.raw < (lo + hi) / 2)
        | none => false } }
    let w : State := if (alarm 6 s).present = true then endedAt 6 u else u
    let idle : Prop := (alarm 6 w).state = .idle ∨ (alarm 6 w).simulated = true
    let free : Prop := s.car.line ≠ .halted ∧ idle
    (bad → ∃ t, exec (.flashSample r) s = .next t ∧
      Onward (if (alarm 6 s).present = true then u else alarmed 6 Alarm.begun u) t) ∧
    (¬ bad → ¬ idle → ∃ t, exec (.flashSample r) s = .next t ∧ Onward w t) ∧
    (¬ bad → idle → s.car.line = .halted → ∃ t, exec (.flashSample r) s = .next t ∧
      Onward { w with ptr := { w.ptr with hotOver := true } } t) ∧
    (¬ bad → free → r.raw < g.profile.tfMin → ∃ t, exec (.flashSample r) s = .next t ∧
      Onward (setHold .flash .preheat { w with ptr := { w.ptr with
        flashJob := .cold, waitFrom := some s.clock, waitLimit := s.prf.line.flashWait } }) t) ∧
    (¬ bad → free → g.profile.tfMin ≤ r.raw → ∃ t, exec (.flashSample r) s = .next t ∧
      Onward (setHold .flash .none { w with ptr := { w.ptr with
        pressClosed := true, flashJob := .pressing, waitFrom := none, dwellFrom := some s.clock } }) t)) ∧
  ∀ s : State,
    (s.ptr.flashJob ≠ .cold → ∃ t, exec .flashWaitExpiry s = .next t ∧ Onward s t) ∧
    (s.ptr.flashJob ≠ .pressing → ∃ t, exec .flashDwellExpiry s = .next t ∧ Onward s t) ∧
    ∀ n g, s.car.index = .none → contentsAt .flash s = .garment n → garment n s = some g →
      (s.ptr.flashJob = .cold → ∃ t, exec .flashWaitExpiry s = .next t ∧ Onward (alarmed 5 Alarm.passed
        (setHold .flash .none (regarment n (fun g => { g with warnings := addTo .underdried g.warnings }) { s with
          ptr := { s.ptr with
            pressClosed := true, flashJob := .pressing, waitFrom := none, dwellFrom := some s.clock } }))) t) ∧
      (s.ptr.flashJob = .pressing → ∃ t, exec .flashDwellExpiry s = .next t ∧ Onward (freed .flash
        (regarment n (fun h => { h with dwell := g.profile.dwell, stage := .flashed }) { s with
          ptr := { s.ptr with
            pressClosed := false, flashJob := .none, waitFrom := none, dwellFrom := none } })) t)

/-! ## PRINT -/

/-- `k` is the state that FDP sets up at the start of stroke `j` for garment `n` (R128, R132). -/
def strokeBegun (j n : Nat) (s : State) (k : Stroke) : Prop :=
  k.map = s.fdp.nozzles ∧ k.interval = s.prf.line.tickle ∧ k.exempt = s.prf.line.exempt ∧ k.lostDots = 0 ∧
  k.tickles = 0 ∧ k.lost = [] ∧ k.read = [] ∧
  (∀ x v, (x, v) ∈ k.idle ↔ v = 0 ∧ (if j = 1 then x < 9600 else 9600 ≤ x ∧ x < 48000) ∧
    nozzleState s.fdp.nozzles x ≠ some .dead ∧ s.prf.line.exempt.getLsbD (x / 400) = false) ∧
  ∀ g, garment n s = some g → k.mark = if j = 2 ∧ g.profile.markOn = true then
    some (BitVec.ofNat 8 s.prf.line.lineId ++ BitVec.ofNat 16 n) else none

/-- The framer's record at the start of stroke `j` (R111). -/
def strokeRecord (j : Nat) (s : State) : Shf :=
  { s.shf with
    job := .stroke, shuttle := .forward, noSignal := some s.clock, stroke := j, pos := 0,
    speed := s.prf.line.shuttleSpeed, lossRule := s.prf.line.lossRule, tol := s.prf.line.markTol,
    autoResync := s.prf.line.autoResync, framer := .acquire, good := 0, window := [], framing := 0, skipped := 0,
    blanked := 0, reach := 0, lastFire := none }

/-- PRINT_START and SPIT_COMPLETE (R110, R111, R128, R139, R140): with a planned garment at PRINT, the line moving and
the shuttle HOME, the spit starts with the channels its counter selects, the counter moves and Print active is set;
every nozzle of those channels, in both rows, spits large drops, a WEAK one medium ones, and a DEAD one none (R125,
R140). Its completion starts the first stroke, with no drop sent. Elsewhere nothing begins. The model's choice: what is
sent to the heads is held as log entry 27 says; a spit whose selected channels with a count above 0 have every nozzle DEAD
in the copy, and so fires no drop, waits for its completion like any other (log entry 44). -/
def Obligations.PrintSteps : Prop :=
  (∀ s : State,
    let may : Prop := s.shf.job = .waiting ∧ (s.car.line = .running ∨ s.car.line = .draining) ∧
      s.shf.shuttle = .home ∧ s.car.index = .none
    let fires : Nat → Nat → Prop := fun ch d => ch < 5 ∧ s.prf.spit.counts[ch]? = some d ∧ 0 < d ∧
      ∃ m, s.prf.spit.masks[ch]? = some m ∧ m.getLsbD s.fdp.spitCounter = true
    (¬ may ∨ (∀ n, contentsAt .print s ≠ .garment n) → ∃ t, exec .printStart s = .next t ∧ Sent s t) ∧
    ∀ n g, may → contentsAt .print s = .garment n → garment n s = some g →
      ∃ t, exec .printStart s = .next t ∧ { t with lnk := s.lnk, ims := s.ims, shf := s.shf, fdp := s.fdp } = s ∧
        t.fdp.spitCounter = (s.fdp.spitCounter + 1) % s.prf.spit.period ∧ t.fdp.nozzles = s.fdp.nozzles ∧
        t.shf.begun = true ∧ t.shf.plan = s.shf.plan ∧
        (g.image = none → t.ims = s.ims) ∧
        (∀ id k im, g.image = some id → imageOf id s = some (k, im) →
          t.ims = { s.ims with images := tabMap k (fun i => { i with printActive := true }) s.ims.images }) ∧
        ((∃ ch d, fires ch d) → t.shf = { s.shf with job := .spit, begun := true } ∧ ∃ k, t.fdp.spit = some k ∧
          k.map = s.fdp.nozzles ∧ (∀ ch d, (ch, d) ∈ k.channels ↔ fires ch d) ∧
          ∃ vs, t.fdp.head = [{ line := none, values := vs }] ∧
          ∀ x v, (x, v) ∈ vs ↔ ∃ ch d r p, fires ch d ∧ r < 2 ∧ p < 4800 ∧ x = 9600 * ch + 4800 * r + p ∧
            (nozzleState s.fdp.nozzles x = none ∧ v = .drop 3 ∨
              nozzleState s.fdp.nozzles x = some .weak ∧ v = .drop 2)) ∧
        ((∀ ch d, ¬ fires ch d) → ∀ j rest, s.shf.plan.strokes = j :: rest →
          t.fdp.spit = none ∧ t.fdp.head = [] ∧ t.shf = { strokeRecord j s with begun := true } ∧
          ∃ k, t.fdp.stroke = some k ∧ strokeBegun j n s k)) ∧
  ∀ s : State,
    (s.shf.job ≠ .spit ∨ s.fdp.spit = none → ∃ t, exec .spitComplete s = .next t ∧ Onward s t) ∧
    ∀ n j rest, s.shf.job = .spit → s.fdp.spit.isSome = true → s.shf.plan.strokes = j :: rest →
      s.car.index = .none → contentsAt .print s = .garment n →
      ∃ t k, exec .spitComplete s = .next t ∧ Onward { s with shf := t.shf, fdp := t.fdp } t ∧
        t.shf = strokeRecord j s ∧ t.fdp = { s.fdp with spit := none, head := [], stroke := some k } ∧
        strokeBegun j n s k

/-- HOME_SENSOR (R107, R108, R110, R121, R122) sets the position to 0, and ends a homing or a return at HOME: the next
stroke starts, or a print that is complete, HELD or CUT is released with stage PRINTED and its image reference returned.
NO_SIGNAL_EXPIRY (R120), while the timer runs, stops the shuttle with one onset of ENCODER, aborts a print in progress,
with a record where a stroke runs and Print active cleared (R141), and holds the garment at PRINT. The model's choice:
the order of the references appended at one event (log entry 11); the expiry asserts that its time has come (log entry
9); a print that has not begun is HELD too (log entry 23); the hold takes a PRINT station that still works, and a
RELEASED one keeps its state (log entry 33); with no stroke running, after an abort and at the end of a print, the
stroke number is 0 and the counters and the framer state stay as the last stroke left them (log entry 34). -/
def Obligations.ShuttleHomeAndSignal : Prop :=
  (∀ s : State,
    let moving : Prop := s.shf.shuttle = .homing ∨ s.shf.shuttle = .return_
    let home : Shf := { s.shf with pos := 0, shuttle := .home, noSignal := none }
    (¬ moving → ∃ t, exec .homeSensor s = .next t ∧ Onward { s with shf := { s.shf with pos := 0 } } t) ∧
    (moving → s.shf.job = .none ∨ s.shf.job = .waiting ∨ s.car.index ≠ .none ∨ (∀ n, contentsAt .print s ≠ .garment n) →
      ∃ t, exec .homeSensor s = .next t ∧ Onward { s with shf := home } t) ∧
    (∀ n j rest, moving → s.shf.job = .return_ → s.shf.plan.strokes = j :: rest → s.car.index = .none →
      contentsAt .print s = .garment n →
      ∃ t k, exec .homeSensor s = .next t ∧ Onward { s with shf := t.shf, fdp := t.fdp } t ∧
        t.shf = strokeRecord j s ∧ t.fdp = { s.fdp with stroke := some k } ∧ strokeBegun j n s k) ∧
    ∀ n g, moving → (s.shf.job = .return_ ∧ s.shf.plan.strokes = []) ∨ s.shf.job = .held ∨ s.shf.job = .cut →
      s.car.index = .none → contentsAt .print s = .garment n → garment n s = some g →
      let done : List (Nat × Image) → State := fun images => freed .print
        (regarment n (fun g => { g with stage := .printed }) { s with
          ims := { s.ims with images := images }
          shf := { home with job := .none, plan := .none, begun := false, stroke := 0 } })
      (g.image = none ∨ beforePrinted g = false →
        ∃ t, exec .homeSensor s = .next t ∧ Onward (done s.ims.images) t) ∧
      ∀ id k im, g.image = some id → beforePrinted g = true → imageOf id s = some (k, im) →
        ∃ t, exec .homeSensor s = .next t ∧
          Onward (done (tabMap k (fun i => { i with garmentRefs := i.garmentRefs - 1 }) s.ims.images)) t) ∧
  ∀ s : State,
    let u : State := { s with shf := { s.shf with shuttle := .stopped, noSignal := none } }
    (s.shf.noSignal = none → ∃ t, exec .noSignalExpiry s = .next t ∧ Onward s t) ∧
    (s.shf.noSignal.isSome = true → s.car.index ≠ .none ∨ (∀ n, contentsAt .print s ≠ .garment n) →
      ∃ t, exec .noSignalExpiry s = .next t ∧ Onward (alarmed 3 Alarm.passed u) t) ∧
    ∀ n g, s.shf.noSignal.isSome = true → s.car.index = .none → contentsAt .print s = .garment n →
      garment n s = some g →
      let works : Prop := s.car.print.working = true
      let held : State → State := fun v =>
        if works then setHold .print .encoder { v with shf := { v.shf with job := .held } } else v
      let aborted : List (Nat × Image) → Prop := fun images =>
        (s.shf.job = .spit ∨ (s.shf.job = .return_ ∧ s.shf.plan.strokes ≠ []) → s.fdp.stroke = none → Shaped s →
          ∃ t, exec .noSignalExpiry s = .next t ∧ Onward (held
            (regarment n (fun g => { g with defects := addTo .printAborted g.defects }) (alarmed 3 Alarm.passed { u with
              ims := { s.ims with images := images }
              shf := { u.shf with stroke := 0, plan := { s.shf.plan with strokes := [] } }
              fdp := { s.fdp with spit := none, head := [] } }))) t) ∧
        ∀ k, s.shf.job = .stroke → s.fdp.stroke = some k → Shaped s →
          ∃ t, exec .noSignalExpiry s = .next t ∧ alarm 3 t = (alarm 3 s).passed ∧
            garment n t = some { g with
              defects := addTo .printAborted g.defects
              strokes := g.strokes ++ [{
                number := s.shf.stroke, first := (s.shf.plan.bounds s.shf.stroke).1,
                last := (s.shf.plan.bounds s.shf.stroke).2, framing := s.shf.framing, skipped := s.shf.skipped,
                blanked := s.shf.blanked, lostDots := k.lostDots, tickles := k.tickles, framer := s.shf.framer,
                aborted := true }] } ∧
            t.shf = { s.shf with shuttle := .stopped, noSignal := none, job := if works then .held else .stroke,
                                 stroke := 0, plan := { s.shf.plan with strokes := [] } } ∧
            t.fdp = { s.fdp with stroke := none, spit := none, head := [] } ∧
            station .print t = (if works then { working := true, hold := .encoder } else station .print s) ∧
            t.ims = { s.ims with images := images } ∧ t.ord = s.ord ∧ t.prf = s.prf ∧ t.ctc = s.ctc ∧ t.exs = s.exs ∧
            t.pins = s.pins ∧ t.car.platens = s.car.platens ∧
            (∀ m, m ≠ n → garment m t = garment m s) ∧ ∀ i, i ≠ 3 → alarm i t = alarm i s
      (s.shf.job = .none ∨ s.shf.job = .waiting ∨ s.shf.job = .held ∨ s.shf.job = .cut ∨
          (s.shf.job = .return_ ∧ s.shf.plan.strokes = []) →
        ∃ t, exec .noSignalExpiry s = .next t ∧ Onward (held (alarmed 3 Alarm.passed u)) t) ∧
      ((g.image.bind fun id => imageOf id s) = none → aborted s.ims.images) ∧
      ∀ id k im, g.image = some id → imageOf id s = some (k, im) →
        aborted (tabMap k (fun i => { i with printActive := false }) s.ims.images)

/-- The field lines of the running stroke whose counts a snap to count `top` reaches, in their order (R116). -/
def linesReached (top : Nat) (s : State) : List Nat :=
  (List.range 6240).filter fun n =>
    decide (s.shf.reach < 3840 + 4 * n ∧ 3840 + 4 * n ≤ top) && s.shf.plan.inField s.shf.stroke n

/-- The last FIRE line was less than 50 µs ago (R118). -/
def FiredJustNow (s : State) : Prop := ∃ a, s.shf.lastFire = some a ∧ s.clock - a < 50

/-- FDP has taken `lines` lines, each BLANK or SKIP, with stroke state `k` before them: it loses no dot and tickles no
nozzle, and the idle counters have counted the lines, up to the interval (R136, R137). -/
def Rested (lines : Nat) (k : Stroke) (t : State) : Prop :=
  ∃ j, t.fdp.stroke = some j ∧ j.lostDots = k.lostDots ∧ j.tickles = k.tickles ∧
    j.idle = k.idle.map fun e => (e.1, min k.interval (e.2 + lines))

/-- `u` where FDP has taken `lines` lines, each BLANK or SKIP: the idle counters have counted them, up to the interval, and
nothing else has changed (R136, R137). -/
def restedFor (lines : Nat) (u : State) : State :=
  { u with fdp := { u.fdp with stroke := u.fdp.stroke.map fun j =>
      { j with idle := j.idle.map fun e => (e.1, min j.interval (e.2 + lines)) } } }

/-- The page reads that the events of the field lines `lines` need, made line by line, with the results left over (R129,
R136); LineComposition states those of one line. -/
def linesRead (serial stroke : Nat) (lines : List Nat) (p : State × List ReadResult) : State × List ReadResult :=
  lines.foldl (fun q n => readBands serial stroke n q) p

/-- The mark window of a framer after one more judged mark (R114): the most recent 4 under 2-of-4, 5 under 2-of-5. -/
def marksAfter (good : Bool) (f : Shf) : List Bool :=
  if f.window.length < (if f.lossRule = .twoOfFour then 4 else 5) then f.window ++ [good] else f.window.tail ++ [good]

/-- The framer goes from `f` to `f'` at a mark judged `good` or bad (R113 to R115), and nothing else of SHF changes: in
ACQUIRE it counts consecutive good marks, and the second brings SYNC with an empty window; in SYNC the mark enters the
window, and the second bad one in it brings LOS, and with auto-resync on ACQUIRE at the same event with no good mark
counted; in LOS nothing changes. -/
structure MarkJudged (good : Bool) (f f' : Shf) : Prop where
  counted : f.framer = .acquire → good = true → f.good = 0 → f' = { f with good := 1 }
  synced : f.framer = .acquire → good = true → 1 ≤ f.good →
    f' = { f with framer := .sync, good := f.good + 1, window := [] }
  broken : f.framer = .acquire → good = false → f' = { f with good := 0 }
  kept : f.framer = .sync → (marksAfter good f).count false < 2 → f' = { f with window := marksAfter good f }
  resynced : f.framer = .sync → 2 ≤ (marksAfter good f).count false → f.autoResync = true →
    f' = { f with framer := .acquire, good := 0, window := marksAfter good f }
  lost : f.framer = .sync → 2 ≤ (marksAfter good f).count false → f.autoResync = false →
    f' = { f with framer := .los, window := marksAfter good f }
  stays : f.framer = .los → f' = f

/-- `v` at the end of the running stroke `k` of garment `n`, whose record is `g` (R110, R111, R119, R141, R142): the stroke
record is written, the shuttle returns with a fresh timer, and after the last stroke FDP decides the defects, LINES_LOST
before LOST_DOTS, and clears Print active. -/
def strokeEnded (n : Nat) (g : Garment) (k : Stroke) (v : State) : State :=
  let last : Bool := v.shf.plan.strokes.tail.isEmpty
  let ended : StrokeRec := { abortedRecord k v with aborted := false }
  let strokes := g.strokes ++ [ended]
  let lines : List Defect → List Defect := fun d =>
    if g.profile.lineLimit < (strokes.map fun r => r.skipped + r.blanked).sum then addTo .linesLost d else d
  let dots : List Defect → List Defect := fun d =>
    if g.profile.dotLimit < (strokes.map StrokeRec.lostDots).sum then addTo .lostDots d else d
  { regarment n (fun h => { h with
      strokes := h.strokes ++ [ended]
      defects := if last then dots (lines h.defects) else h.defects }) v with
    ims := match last, g.image.bind fun id => imageOf id v with
      | true, some (q, _) => { v.ims with images := tabMap q (fun i => { i with printActive := false }) v.ims.images }
      | _, _ => v.ims
    shf := { v.shf with
      shuttle := .return_, job := .return_, noSignal := some v.clock, stroke := 0,
      plan := { v.shf.plan with strokes := v.shf.plan.strokes.tail } }
    fdp := { v.fdp with stroke := none, spit := none } }

/-- SHUTTLE_ENCODER_COUNT (R107, R116 to R120, R111, R142) and SCALE_MARK (R112 to R116). Outside FORWARD a count moves
the position and restarts a running timer, and a mark is not judged; a backward count in FORWARD makes no line event. In
a stroke a count that reaches a field line makes its one line event, BLANK outside SYNC, SKIP less than 50 µs after the
last FIRE, FIRE elsewhere; whatever its form it makes the page reads it needs first (R129, R136), a FIRE line is then
composed, and at the others FDP sends nothing and counts the idle counters on; the count of 28,800 ends the stroke with
its record, and the last stroke with the defect decision and Print active cleared (R110, R142). A mark within the
tolerance is good and snaps the position, any other is one framing error, and the framer takes each as `MarkJudged`
says; the field lines that a forward snap reaches then make their page reads and line events by the framer as judged,
the first FIRE line sending its values and those after it being SKIP, and a snap to 28,800 ends the stroke. A garment's
plan has the strokes and the fields of R109, and the bounds of a field are its first and last line. The model's choice:
the page reads take their results in the order of the lines and the channels (log entry 7); the timer begins afresh at
the turn (log entry 24); what is sent to the heads is held from one count or good mark to the next (log entry 27); after
the stroke the stroke number is 0 and the counters and the framer state stay (log entry 34). -/
def Obligations.ShuttleMotion : Prop :=
  (∀ (g : Garment) (s : State),
    ((planOf g s).image = (printImage g s).map fun i => (i.y0, i.h)) ∧
    (planOf g s).mark = (if g.profile.markOn = true then some g.profile.markY else none) ∧
    (∀ i, printImage g s = some i → (planOf g s).strokes = if i.channels.getLsbD 0 = true then [1, 2] else [2]) ∧
    (printImage g s = none → (planOf g s).strokes = if g.profile.markOn = true then [2] else [])) ∧
  (∀ (plan : Plan) (k n : Nat),
    (plan.inField k n = true ↔ (∃ y h, plan.image = some (y, h) ∧ y ≤ n ∧ n < y + h) ∨
      (k = 2 ∧ ∃ y, plan.mark = some y ∧ y ≤ n ∧ n < y + 32)) ∧
    ((∀ y h, plan.image = some (y, h) → 0 < h) → plan.inField k n = true →
      (plan.bounds k).1 ≤ n ∧ n ≤ (plan.bounds k).2 ∧ plan.inField k (plan.bounds k).1 = true ∧
      plan.inField k (plan.bounds k).2 = true)) ∧
  (∀ (forward : Bool) (reads : List ReadResult) (s : State), s.shf.shuttle ≠ .forward →
    ∃ t, exec (.shuttleEncoderCount forward reads) s = .next t ∧ Onward { s with shf := { s.shf with
      pos := if forward then s.shf.pos + 1 else s.shf.pos - 1
      noSignal := if s.shf.noSignal.isSome then some s.clock else none } } t) ∧
  (∀ (reads : List ReadResult) (s : State) (p : Nat), s.shf.shuttle = .forward → s.shf.pos = p →
    let u : Shf := { s.shf with
      pos := p + 1, reach := max s.shf.reach (p + 1),
      noSignal := if s.shf.noSignal.isSome then some s.clock else none }
    let anew : State := { s with fdp := { s.fdp with head := [] } }
    (s.shf.pos - 1 ≤ s.shf.reach → p ≤ 28800 →
      ∃ t, exec (.shuttleEncoderCount false reads) s = .next t ∧ Onward { anew with shf := { s.shf with
        pos := s.shf.pos - 1, noSignal := u.noSignal } } t ∧ t.fdp = anew.fdp) ∧
    (p + 1 < 28800 → p + 1 ≤ s.shf.reach ∨ s.shf.reach = p ∧
        (∀ n < 6240, 3840 + 4 * n = p + 1 → s.shf.plan.inField s.shf.stroke n = false) →
      ∃ t, exec (.shuttleEncoderCount true reads) s = .next t ∧ Onward { anew with shf := u } t ∧ t.fdp = anew.fdp) ∧
    (∀ n m k, s.shf.reach = p → n < 6240 → 3840 + 4 * n = p + 1 → s.shf.plan.inField s.shf.stroke n = true →
      s.car.index = .none → contentsAt .print s = .garment m → s.fdp.stroke = some k →
      let read : State := (readBands m s.shf.stroke n (anew, reads)).1
      ∃ t, exec (.shuttleEncoderCount true reads) s = .next t ∧
        t.shf = (if s.shf.framer ≠ .sync then { u with blanked := min 6240 (s.shf.blanked + 1) }
          else match s.shf.lastFire with
            | some a => if s.clock - a < 50 then { u with skipped := min 1023 (s.shf.skipped + 1) }
              else { u with lastFire := some s.clock }
            | none => { u with lastFire := some s.clock }) ∧
        (s.shf.framer ≠ .sync ∨ FiredJustNow s → Onward { restedFor 1 read with shf := t.shf } t ∧
          t.fdp = (restedFor 1 read).fdp ∧ t.fdp.head = [] ∧ Rested 1 k t) ∧
        t.prf = s.prf ∧ t.ctc = s.ctc ∧ t.exs = s.exs ∧ t.pins = s.pins ∧ t.ims.store = s.ims.store ∧
        t.fdp.nozzles = s.fdp.nozzles ∧ t.car.platens = s.car.platens ∧ t.car.line = s.car.line ∧
        (s.shf.framer = .sync → ¬ FiredJustNow s →
          let w := composeLine m s.shf.stroke n read
          Onward { w with shf := { u with lastFire := some s.clock } } t ∧ t.fdp = w.fdp)) ∧
    ∀ n g k, p + 1 = 28800 → s.shf.reach = p → s.car.index = .none → contentsAt .print s = .garment n →
      garment n s = some g → s.fdp.stroke = some k →
      ∃ t, exec (.shuttleEncoderCount true reads) s = .next t ∧
        Onward (strokeEnded n g k { anew with shf := u }) t) ∧
  ∀ (reads : List ReadResult) (s : State),
    (s.shf.shuttle ≠ .forward → ∃ t, exec (.scaleMark reads) s = .next t ∧ Onward s t) ∧
    (s.shf.shuttle = .forward → (∀ k : Nat, 1 ≤ k → k ≤ 15 → s.shf.tol < (s.shf.pos - (1920 * k : Nat)).natAbs) →
      ∃ t, exec (.scaleMark reads) s = .next t ∧ Onward { s with shf := t.shf } t ∧
        MarkJudged false { s.shf with framing := min 255 (s.shf.framing + 1) } t.shf) ∧
    ∀ k : Nat, s.shf.shuttle = .forward → 1 ≤ k → k ≤ 15 → s.shf.tol ≤ 8 →
      (s.shf.pos - (1920 * k : Nat)).natAbs ≤ s.shf.tol →
      let anew : State := { s with fdp := { s.fdp with head := [] } }
      ∃ f v t, exec (.scaleMark reads) s = .next t ∧ MarkJudged true { s.shf with pos := (1920 * k : Nat) } f ∧
        (k < 15 → Onward v t ∧ t.shf = v.shf ∧ t.fdp = v.fdp) ∧
        (∀ m g st, k = 15 → s.car.index = .none → contentsAt .print s = .garment m → garment m v = some g →
          v.fdp.stroke = some st → Onward (strokeEnded m g st v) t) ∧
        (let u : Shf := { f with reach := max s.shf.reach (1920 * k) }
         (linesReached (1920 * k) s = [] → v = { anew with shf := u }) ∧
         ∀ m n rest, s.car.index = .none → contentsAt .print s = .garment m → linesReached (1920 * k) s = n :: rest →
           let unfired : State := restedFor (rest.length + 1) (linesRead m s.shf.stroke (n :: rest) (anew, reads)).1
           (f.framer ≠ .sync ∨ FiredJustNow s →
             v.fdp.head = [] ∧ ∀ st, s.fdp.stroke = some st → Rested (rest.length + 1) st v) ∧
           (f.framer ≠ .sync → v = { unfired with
             shf := { u with blanked := min 6240 (s.shf.blanked + (rest.length + 1)) } }) ∧
           (f.framer = .sync → FiredJustNow s → v = { unfired with
             shf := { u with skipped := min 1023 (s.shf.skipped + (rest.length + 1)) } }) ∧
           (f.framer = .sync → ¬ FiredJustNow s →
             let r := readBands m s.shf.stroke n (anew, reads)
             let w := composeLine m s.shf.stroke n r.1
             v.fdp.head = w.fdp.head ∧
             (rest = [] → v = { w with shf := { u with lastFire := some s.clock } }) ∧
             (rest ≠ [] →
               v = { restedFor rest.length (linesRead m s.shf.stroke rest (w, r.2)).1 with shf := { u with
                 lastFire := some s.clock, skipped := min 1023 (s.shf.skipped + rest.length) } } ∧
               ∀ st, s.fdp.stroke = some st →
                 ∃ j, w.fdp.stroke = some j ∧ j.interval = st.interval ∧ Rested rest.length j v))) ∧
        t.prf = s.prf ∧ t.exs = s.exs ∧ t.pins = s.pins ∧ t.fdp.nozzles = s.fdp.nozzles ∧ t.ims.store = s.ims.store

/-- Composing a line (R131 to R137): the base row's nozzle fires the demand, A on even lines and B on odd ones, the
other row's where it is DEAD, none where both are, and a WEAK nozzle fires 3 as 2; the fire values sent are these drops
and the tickles of the counters that reach the interval without one, behind those of the lines before it at the event;
the mark's cells carry the line id and the serial, most significant bit first. The demand of a dot is the value the
store holds for it, four dots a byte, and 0 outside the image, on a BLANK or LOST entry and for a channel the image does
not declare (R24, R130). A line reads first those driven channels' band-planes that the stroke has not read; a corrected
read is counted, and an uncorrectable one retires the page, loses the entry for the stroke with STORE_ECC on alarm and
garment, and makes a READY image DAMAGED (R45, R46, R129). The model's choice: the reads are made, and take their
results, in the order W, C, M, Y, K (log entry 7); what is sent to the heads is held as log entry 27 says. -/
def Obligations.LineComposition : Prop :=
  (∀ (map : List (Nat × NozzleFault)) (demands : Nat → Nat) (ch n x base : Nat), base = n % 2 →
    let at_ : Nat → Option NozzleFault := fun r => nozzleState map (9600 * ch + 4800 * r + x)
    let fired : Nat → Nat := fun r => if at_ r = some .weak ∧ demands x = 3 then 2 else demands x
    (at_ base ≠ some .dead →
      firedBy map demands ch n base x = fired base ∧ firedBy map demands ch n (1 - base) x = 0) ∧
    (at_ base = some .dead → at_ (1 - base) ≠ some .dead →
      firedBy map demands ch n base x = 0 ∧ firedBy map demands ch n (1 - base) x = fired (1 - base)) ∧
    (at_ base = some .dead → at_ (1 - base) = some .dead → ∀ r, firedBy map demands ch n r x = 0)) ∧
  (∀ (serial stroke n : Nat) (s : State) (g : Garment) (k : Stroke), garment serial s = some g → s.fdp.stroke = some k →
    ∃ j vs, (composeLine serial stroke n s).fdp.stroke = some j ∧
      (composeLine serial stroke n s).fdp.head = s.fdp.head ++ [{ line := some n, values := vs }] ∧
      (∀ ch r x v, ch ∈ (if stroke = 1 then [0] else [1, 2, 3, 4]) → r < 2 → x < 4800 →
        ((9600 * ch + 4800 * r + x, .drop v) ∈ vs ↔
          v ≠ 0 ∧ v = firedBy k.map (demand g k (printImage g s) ch n s) ch n r x)) ∧
      (∀ x, (x, .tickle) ∈ vs ↔ (∀ v, (x, .drop v) ∉ vs) ∧ ∃ c, (x, c) ∈ k.idle ∧ k.interval ≤ c + 1) ∧
      j.idle = k.idle.map (fun e =>
        (e.1, if (vs.any fun d => d.1 == e.1 && d.2 != .tickle) = true ∨ k.interval ≤ e.2 + 1 then 0 else e.2 + 1)) ∧
      j.tickles = min 16777215 (k.tickles + vs.countP fun d => d.2 == .tickle) ∧
      j.lostDots = min 16777215 (k.lostDots + ((if stroke = 1 then [0] else [1, 2, 3, 4]).map fun ch =>
        (List.range 4800).countP fun x => decide (nozzleState k.map (9600 * ch + x) = some .dead ∧
          nozzleState k.map (9600 * ch + 4800 + x) = some .dead ∧
          demand g k (printImage g s) ch n s x ≠ 0)).sum)) ∧
  (∀ (g : Garment) (k : Stroke) (i : Image) (ch n x : Nat) (s : State), ch < 4 ∨ (ch = 4 ∧ k.mark = none) →
    (demand g k none ch n s x = 0) ∧
    ((n < i.y0 ∨ i.y0 + i.h ≤ n ∨ x < i.x0 ∨ i.x0 + i.w ≤ x ∨ i.channels.getLsbD ch = false) →
      demand g k (some i) ch n s x = 0) ∧
    ∀ e, i.y0 ≤ n → n < i.y0 + i.h → i.x0 ≤ x → x < i.x0 + i.w → i.channels.getLsbD ch = true →
      e = (channelsIn i.channels).idxOf ch * ((i.h + 47) / 48) + (n - i.y0) / 48 →
      ((∀ p sent, i.planes[e]? ≠ some (.page p sent)) → demand g k (some i) ch n s x = 0) ∧
      ∀ p sent, i.planes[e]? = some (.page p sent) → demand g k (some i) ch n s x =
        (storeRead s.ims.store (65536 * p + (n - i.y0) % 48 * ((i.w + 3) / 4) + (x - i.x0) / 4)).toNat /
          4 ^ (3 - (x - i.x0) % 4) % 4) ∧
  (∀ (g : Garment) (k : Stroke) (img : Option Image) (n x : Nat) (s : State) (bits : BitVec 24), k.mark = some bits →
    demand g k img 4 n s x =
      (markDemand g.profile bits n x).getD (demand g { k with mark := none } img 4 n s x)) ∧
  (∀ (serial stroke n slot id : Nat) (reads : List ReadResult) (s : State) (g : Garment) (k : Stroke) (i : Image),
    garment serial s = some g → s.fdp.stroke = some k →
    (g.image = none → readBands serial stroke n (s, reads) = (s, reads)) ∧
    (g.image = some id → imageOf id s = some (slot, i) →
      (n < i.y0 ∨ i.y0 + i.h ≤ n → readBands serial stroke n (s, reads) = (s, reads)) ∧
      (i.y0 ≤ n → n < i.y0 + i.h → readBands serial stroke n (s, reads) =
        ((if stroke = 1 then [0] else [1, 2, 3, 4]).filter fun ch =>
          i.channels.getLsbD ch && !k.read.contains (ch, (n - i.y0) / 48)).foldl
            (fun q ch => readPlane serial slot i ch ((n - i.y0) / 48) q) (s, reads)))) ∧
  (∀ (serial slot ch b e : Nat) (reads : List ReadResult) (s : State) (k : Stroke) (i j : Image), Keyed s → Shaped s →
    s.fdp.stroke = some k → i.channels.getLsbD ch = true → b < (i.h + 47) / 48 →
    e = (channelsIn i.channels).idxOf ch * ((i.h + 47) / 48) + b → tabGet slot s.ims.images = some j →
    let lose : State → State := fun u => regarment serial (fun g => { g with defects := addTo .storeEcc g.defects })
      { u with fdp := { s.fdp with stroke := some { k with read := k.read ++ [(ch, b)], lost := k.lost ++ [(ch, b)] } } }
    let made : State := { s with fdp := { s.fdp with stroke := some { k with read := k.read ++ [(ch, b)] } } }
    (j.planes[e]? = some .blank → readPlane serial slot i ch b (s, reads) = (made, reads)) ∧
    (j.planes[e]? = some .lost → readPlane serial slot i ch b (s, reads) = (lose s, reads)) ∧
    ∀ p sent, j.planes[e]? = some (.page p sent) →
      (reads.headD .clean = .clean → readPlane serial slot i ch b (s, reads) = (made, reads.tail)) ∧
      (reads.headD .clean = .corrected → readPlane serial slot i ch b (s, reads) =
        ({ made with ims := { s.ims with corrected :=
          if s.ims.corrected + 1 ≤ 65535 then s.ims.corrected + 1 else 65535 } }, reads.tail)) ∧
      (reads.headD .clean = .uncorrectable → imageOf j.id s = some (slot, j) →
        let named : Nat := if j.state = .ready then
          s.ord.units.countP fun p => p.2.state == .queued && unitImage p.2 s == some j.id else 0
        ∃ u, readPlane serial slot i ch b (s, reads) = (lose u, reads.tail) ∧
          tabGet slot u.ims.images = some { j with
            planes := j.planes.set e .lost, queuedRefs := j.queuedRefs - named
            state := if j.state = .ready then .damaged else j.state } ∧
          (∀ q, q ≠ slot → tabGet q u.ims.images = tabGet q s.ims.images) ∧
          (∀ m, m ∈ u.ims.retired ↔ m ∈ s.ims.retired ∨ m = p) ∧ u.alm = (alarmed 17 Alarm.passed s).alm ∧
          (j.state = .ready → UnitsFollow j.id .queued .waitImage s u ∧ .image slot ∈ u.lnk.notices) ∧
          (j.state ≠ .ready → u.ord = s.ord) ∧ u.ims.store = s.ims.store ∧
          { u with lnk := s.lnk, ord := s.ord, ims := s.ims, alm := s.alm } = s)) ∧
  ∀ (p : Profile) (lineId serial i j dx dy : Nat), lineId < 256 → serial < 65536 → i < 6 → j < 4 → dx < 8 → dy < 8 →
    markDemand p (markBits lineId serial) (p.markY + 8 * j + dy) (p.markX + 8 * i + dx) =
      some (if (lineId * 65536 + serial).testBit (23 - (6 * j + i)) = true then 3 else 0)

/-! ## The cure tunnel and the exit -/

/-- Dose limits (R152), the remaining exposure (R154), the speed pairs (R155), the selected speed (R156) and the
admission test (R163): full list, spacing, and a common speed of the claimant, the members and the range. -/
def Obligations.SpeedAndAdmission : Prop :=
  (∀ (p : Profile) (ink : Nat), doseLimits p ink = (min (p.dBase + ink * p.kInk / 256) p.dMax, p.dMax,
    decide (p.dMax ≤ p.dBase + ink * p.kInk / 256))) ∧
  (∀ (g : Garment) (s : State) (p : Nat),
    let e : Nat → Nat := fun z => if (zoneAt z s).faulted = true then 0 else (zoneAt z s).reading - g.profile.tTh
    (p < 1000 → exposure g p s = e 0 * (1000 - p) + e 1 * 1000 + e 2 * 1000) ∧
    (1000 ≤ p → p < 2000 → exposure g p s = e 1 * (2000 - p) + e 2 * 1000) ∧
    (2000 ≤ p → p < 3000 → exposure g p s = e 2 * (3000 - p)) ∧
    (g.dMax ≤ g.d → pairOf g p s = none) ∧
    (g.d < g.dMax → g.dReq ≤ g.d → ∃ lo, pairOf g p s = some { lo := lo, hi := none } ∧
      ∀ v, lo ≤ v ↔ 100 * exposure g p s ≤ v * (g.dMax - g.d)) ∧
    (g.d < g.dMax → g.d < g.dReq → exposure g p s = 0 → pairOf g p s = some { lo := 0, hi := some 0 }) ∧
    (g.d < g.dMax → g.d < g.dReq → 0 < exposure g p s → ∃ lo hi, pairOf g p s = some { lo := lo, hi := some hi } ∧
      (∀ v, lo ≤ v ↔ 100 * exposure g p s ≤ v * (g.dMax - g.d)) ∧
      ∀ v, v ≤ hi ↔ v * (g.dReq - g.d) ≤ 100 * exposure g p s)) ∧
  (∀ s : State, s.prf.cure.sMin ≤ s.prf.cure.sMax →
    let bounds : Nat → Prop := fun h => ∃ pr, pr.hi = some h ∧ (heatedPair s pr ∨
      ∃ n g, s.ctc.entrant = some n ∧ garment n s = some g ∧ pairOf g 0 s = some pr)
    s.prf.cure.sMin ≤ selectSpeed s ∧ selectSpeed s ≤ s.prf.cure.sMax ∧
    (∀ h, bounds h → selectSpeed s ≤ max h s.prf.cure.sMin) ∧
    (selectSpeed s = s.prf.cure.sMax ∨ ∃ h, bounds h ∧ selectSpeed s = max h s.prf.cure.sMin)) ∧
  ∀ (s : State) (n : Nat) (g : Garment), garment n s = some g →
    (∀ why, claimFails g why s → admission n s = .fails why) ∧
    ∀ range, claimPasses g range s → admission n s = .admitted range

/-- The counts of a run of samples and the condition `after` one more (R150, R151): `begins` and `ends` say what the
sample shows, `b` and `e` are the begin and end counts before it, `b'` and `e'` those after it. -/
structure RunTaken (n : Nat) (present begins ends : Prop) (b e b' e' : Nat) (after : Prop) : Prop where
  broken : ¬ present → ¬ begins → b' = 0 ∧ e' = e ∧ ¬ after
  begun : ¬ present → begins → min 255 (b + 1) < n → b' = min 255 (b + 1) ∧ e' = e ∧ ¬ after
  onset : ¬ present → begins → 0 < n → n ≤ min 255 (b + 1) → b' = 0 ∧ e' = 0 ∧ after
  kept : present → ¬ ends → e' = 0 ∧ b' = b ∧ after
  ending : present → ends → e + 1 < 3 → e' = e + 1 ∧ b' = b ∧ after
  ended : present → ends → 3 ≤ e + 1 → b' = 0 ∧ e' = 0 ∧ ¬ after

/-- An alarm record whose condition is reported as it now stands (R196 to R198). -/
def reportedAs (now : Prop) [Decidable now] (a : Alarm) : Alarm :=
  if now then (if a.present = true then a else a.begun)
  else if a.present = false then a
  else if a.state = .active then
    (if a.acked = true then { a with state := .idle, present := false, acked := false, simulated := false }
      else { a with state := .latched, present := false })
  else { a with present := false }

/-- TUNNEL_SAMPLE (R146 to R151, R153, R156, R162 to R166): the readings are stored, ZONE_SENSOR follows each reading,
ZONE_TRIP and ZONE_LOW follow their runs of samples, the duties follow the rule of heater control, every garment in the
heated part gains the excess of its zone and no other garment gains any, the sample is counted, the tenth recomputes the
speed, and nothing else changes (`u`). Then the gate tests the re-feed claim (`v`) and, on the list as that leaves it,
the UNLOAD claim (`w`). The model's choice: a ZONE_LOW that ends sets both its counts to 0 (log entry 39); the last
reason reported is NONE once the re-feed claim is admitted (log entry 40); at an admission the line is appended before
the garment that takes CURE_RANGE (log entry 11). -/
def Obligations.TunnelSample : Prop :=
  ∀ (z1 z2 z3 : Reading) (s : State), Shaped s →
    ∃ u v w t, exec (.tunnelSample z1 z2 z3) s = .next t ∧ RefeedTested u v ∧ UnloadTested v w ∧ Onward w t ∧
      (∀ k r, [z1, z2, z3][k]? = some r →
        (zoneAt k u).reading = r.raw ∧ (zoneAt k u).faulted = (r.fault || decide (3000 < r.raw)) ∧
        alarm (13 + k) u = reportedAs ((zoneAt k u).faulted = true) (alarm (13 + k) s) ∧
        (let z := zoneAt k s
         let v := (s.prf.cure.tSet[k]?).getD 0
         let warm : Prop := s.car.line = .running ∨ s.car.line = .draining ∨ s.car.line = .stopped
         ((zoneAt k u).faulted = true → (zoneAt k u).tripBegin = 0 ∧ (zoneAt k u).tripEnd = 0 ∧
           alarm (7 + k) u = alarm (7 + k) s) ∧
         ((zoneAt k u).faulted = false →
           RunTaken s.prf.cure.samples ((alarm (7 + k) s).present = true) (s.prf.cure.tTrip < r.raw) (r.raw < v) z.tripBegin
             z.tripEnd (zoneAt k u).tripBegin (zoneAt k u).tripEnd ((alarm (7 + k) u).present = true) ∧
           alarm (7 + k) u = reportedAs ((alarm (7 + k) u).present = true) (alarm (7 + k) s)) ∧
         ((zoneAt k u).faulted = true ∨ ¬ warm → (zoneAt k u).lowBegin = 0 ∧ (zoneAt k u).lowEnd = 0 ∧
           alarm (10 + k) u = alarm (10 + k) s) ∧
         ((zoneAt k u).faulted = false → warm →
           RunTaken s.prf.cure.samples ((alarm (10 + k) s).present = true) (r.raw < v - s.prf.cure.band)
             (v - s.prf.cure.band ≤ r.raw) z.lowBegin z.lowEnd (zoneAt k u).lowBegin (zoneAt k u).lowEnd
             ((alarm (10 + k) u).present = true) ∧
           alarm (10 + k) u = reportedAs ((alarm (10 + k) u).present = true) (alarm (10 + k) s))) ∧
        (s.car.line = .idle ∨ s.car.line = .halted ∨ (zoneAt k u).faulted = true ∨ ownerIdle (7 + k) s = false ∨
            ownerIdle (7 + k) u = false ∨ ownerIdle (13 + k) s = false ∨ ownerIdle (13 + k) u = false →
          (zoneAt k u).duty = 0) ∧
        (s.car.line = .running ∨ s.car.line = .draining ∨ s.car.line = .stopped → (zoneAt k u).faulted = false →
          ownerIdle (7 + k) s = true → ownerIdle (7 + k) u = true → ownerIdle (13 + k) s = true →
          ownerIdle (13 + k) u = true → s.prf.cure.dMin ≤ s.prf.cure.dMax → ∀ v, s.prf.cure.tSet[k]? = some v →
          (zoneAt k u).duty =
            max s.prf.cure.dMin (min s.prf.cure.dMax (s.prf.cure.gain * (v - r.raw) / 10)))) ∧
      u.ctc = { s.ctc with
        zones := u.ctc.zones
        sampleCount := if s.ctc.sampleCount + 1 < 10 then s.ctc.sampleCount + 1 else 0
        selected := if s.ctc.sampleCount + 1 < 10 then s.ctc.selected else selectSpeed u } ∧
      (∀ n g, garment n s = some g → ∃ h, garment n u = some h ∧ h = { g with d := h.d } ∧
        ((∀ r ∈ s.ctc.tunnel, r.serial = n → 30000 ≤ r.travel) → h.d = g.d) ∧
        ∀ r z, (s.ctc.tunnel.map Rider.serial).Nodup → r ∈ s.ctc.tunnel → r.serial = n → r.travel < 30000 →
          [z1, z2, z3][r.travel / 10000]? = some z →
          h.d = min 4000000000 (g.d + if z.fault = true ∨ 3000 < z.raw then 0 else z.raw - g.profile.tTh)) ∧
      u.car = { s.car with garments := u.car.garments } ∧ (∀ n, garment n s = none → garment n u = none) ∧
      { u with lnk := s.lnk, car := s.car, ctc := s.ctc, alm := s.alm } = s ∧
      { u.lnk with notices := s.lnk.notices } = s.lnk ∧ (∀ i, i < 7 ∨ 16 ≤ i → alarm i u = alarm i s)

/-- The cure outcome of a garment at 3,000 mm (R171). -/
def outcomeAt (g : Garment) : CureOutcome :=
  if g.d < g.dReq then .undercured else if g.d ≤ g.dMax then .pass else .scorched

/-- What one belt count makes of the record of garment `n`, with `riders` on the belt before it (R144, R159, R171): a new
whole mm is its location, and the count of 3,000 mm fixes its outcome and its stage IN_EXIT. Any other garment keeps its
record. -/
def carried (riders : List Rider) (n : Nat) (g : Garment) : Garment :=
  match riders.find? fun r => r.serial == n with
  | none => g
  | some r =>
    let h := if (r.travel + 1) % 10 = 0 then { g with location := .belt ((r.travel + 1) / 10) } else g
    if r.travel + 1 = 30000 then { h with stage := .inExit, outcome := some (outcomeAt g) } else h

/-- `s` after one belt count (R144, R158, R180): every garment on the belt has moved, a running stall timer has restarted,
and the diverter hold has counted, and ends at 2,000 with the diverter at MANUAL. -/
def beltMoved (s : State) : State :=
  { s with
    ctc := { s.ctc with
      stallFrom := if s.ctc.stallFrom.isSome then some s.clock else none
      tunnel := s.ctc.tunnel.map fun r => { r with travel := r.travel + 1 } }
    exs := match s.exs.hold with
      | some n => if n + 1 < 2000 then { s.exs with hold := some (n + 1) }
        else { s.exs with hold := none, diverter := .manual }
      | none => s.exs
    car := { s.car with garments := s.car.garments.map fun p => (p.1, carried s.ctc.tunnel p.1 p.2) } }

/-- BELT_ENCODER_COUNT (R144, R158 to R160, R171, R177, R180): every garment on the belt moves by one count and takes
its new whole mm; one that comes to 3,000 mm gets its outcome and stage IN_EXIT, and the speed is recomputed; one that
comes to 3,300 mm leaves the list by the first row of the routing table that applies, and the diverter takes its route;
a bin of its order counts it, or a FREE one is assigned to the order (R188), its unit takes the sort report of its route
(R179), and the garment, the bin, the order that is assigned a bin or is SPLIT, and NO_BIN are appended (R178, R189,
R197). Nothing else changes, and no other garment's record but for its place. The hold counts, and DIVERTER_HOLD_END
returns the diverter to MANUAL. The model's choice: that command asserts that the hold has come to its end, so it acts at
any count (log entry 9). -/
def Obligations.BeltCounts : Prop :=
  (∀ s : State, (s.ctc.tunnel.map Rider.serial).Nodup →
    (∀ r ∈ s.ctc.tunnel, r.travel + 1 < 33000 ∧ r.travel + 1 ≠ 30000) →
    ∃ t, exec .beltEncoderCount s = .next t ∧ Onward (beltMoved s) t) ∧
  (∀ (s : State) (r : Rider), (s.ctc.tunnel.map Rider.serial).Nodup → r ∈ s.ctc.tunnel →
    r.travel = 29999 → (∀ q ∈ s.ctc.tunnel, q.travel + 1 < 33000 ∧ (q.travel + 1 = 30000 → q = r)) →
    let w := beltMoved s
    ∃ t, exec .beltEncoderCount s = .next t ∧ Onward { w with ctc := { w.ctc with selected := selectSpeed w } } t ∧
      ∀ g, garment r.serial s = some g → garment r.serial w = some { g with
        location := .belt 3000, stage := .inExit, outcome := some (outcomeAt g) }) ∧
  (∀ (s : State) (r : Rider) (rest : List Rider) (g : Garment) (slot : Nat) (o : Order), s.ctc.tunnel = r :: rest →
    r.travel = 32999 → (∀ q ∈ rest, q.serial ≠ r.serial ∧ q.travel + 1 < 33000 ∧ q.travel + 1 ≠ 30000) →
    garment r.serial s = some g → orderOf g.order s = some (slot, o) →
    let v : Verification := g.verification.getD .unverified
    let again : Prop := g.outcome = some .undercured ∧ g.recures < s.prf.line.recureLimit ∧ s.exs.recure.length < 8
    let unbinned : Prop := o.state ≠ .cancelling ∧ v ≠ .unverified ∧ g.defects = [] ∧ g.outcome = some .pass ∧
      unitTotal o ≠ 1 ∧ o.bin = none ∧ freeBin s = none
    let route : Route :=
      if o.state = .cancelling then .reject
      else if v = .unverified then .manual
      else if g.defects ≠ [] then .reject
      else if again then .recure
      else if g.outcome ≠ some .pass then .reject
      else if unitTotal o = 1 then .single
      else match o.bin with
        | some b => .bin b
        | none => match freeBin s with
          | some b => .bin b
          | none => .manual
    ∃ u t, exec .beltEncoderCount s = .next t ∧ Onward u t ∧
      u.ctc = { (beltMoved s).ctc with tunnel := rest.map fun r => { r with travel := r.travel + 1 } } ∧
      { u.exs with recure := s.exs.recure, diverter := s.exs.diverter, hold := s.exs.hold, bins := s.exs.bins } = s.exs ∧
      { u.car with garments := s.car.garments } = s.car ∧ { u.alm with alarms := s.alm.alarms } = s.alm ∧
      { u with lnk := s.lnk, ord := s.ord, ims := s.ims, car := s.car, ctc := s.ctc, exs := s.exs, alm := s.alm } = s ∧
      { u.lnk with notices := s.lnk.notices } = s.lnk ∧
      ((rest.map Rider.serial).Nodup → ∀ m, m ≠ r.serial → garment m u = (garment m s).map (carried rest m)) ∧
      garment r.serial u = some { g with
        route := some route, verification := some v
        stage := if route = .recure then .recureWait else .sorted
        location := if route = .recure then .recure else .absent
        outcome := if o.state = .cancelling then some .cancelled else g.outcome
        warnings := if unbinned then addTo .noBin g.warnings else g.warnings } ∧
      u.exs.diverter = route ∧ u.exs.hold = some 0 ∧
      u.exs.recure = (if route = .recure then s.exs.recure ++ [r.serial] else s.exs.recure) ∧
      u.ims.store = s.ims.store ∧
      (let w : State := match route with
         | .bin b => { s with
             exs := { s.exs with bins := s.exs.bins.set (b - 1) (if o.bin = none then
               { state := .filling, order := some o.id, count := 1 }
               else { binAt b s with count := (binAt b s).count + 1 }) }
             ord := { s.ord with orders := tabMap slot (fun o => { o with bin := some b }) s.ord.orders } }
         | _ => if unbinned then
             { s with ord := { s.ord with orders := tabMap slot (fun o => { o with split := true }) s.ord.orders } } else s
       let x : State := match route with
         | .bin _ => sortReport .done g w
         | .single => sortReport .done g w
         | .recure => w
         | .manual => if unbinned then sortReport .done g w else sortReport .reprint g w
         | .reject => sortReport .reprint g w
       Keyed s → u.ord = x.ord ∧ u.exs.bins = x.exs.bins ∧ u.ims = x.ims ∧
       ∀ ref, ref ∈ u.lnk.notices ↔ ref ∈ x.lnk.notices ∨ (route ≠ .recure ∧ ref = .garment r.serial) ∨
         (∃ b, route = .bin b ∧ (ref = .bin b ∨ (o.bin = none ∧ ref = .order slot))) ∨
         (unbinned ∧ (ref = .order slot ∨ (masked 18 s = false ∧ ref = .alarm 18)))) ∧
      (unbinned → Shaped s → alarm 18 u = (alarm 18 s).passed) ∧ (¬ unbinned → alarm 18 u = alarm 18 s) ∧
      ∀ i, i ≠ 18 → alarm i u = alarm i s) ∧
  (∀ s : State, exec .diverterHoldEnd s = .next (if s.exs.hold.isSome = true then
    { s with exs := { s.exs with hold := none, diverter := .manual } } else s)) ∧
  ∀ (s : State) (b : Nat), freeBin s = some b ↔ 1 ≤ b ∧ b ≤ min s.prf.line.bins 24 ∧ (binAt b s).state = .free ∧
    ∀ c, 1 ≤ c → c < b → (binAt c s).state ≠ .free

/-- The mark record (R172 step 1): three digits, a hyphen and five digits, as a line id and a serial. -/
def markText (line serial : Nat) : List Byte :=
  [BitVec.ofNat 8 (0x30 + line / 100 % 10), BitVec.ofNat 8 (0x30 + line / 10 % 10), BitVec.ofNat 8 (0x30 + line % 10),
   0x2D, BitVec.ofNat 8 (0x30 + serial / 10000 % 10), BitVec.ofNat 8 (0x30 + serial / 1000 % 10),
   BitVec.ofNat 8 (0x30 + serial / 100 % 10), BitVec.ofNat 8 (0x30 + serial / 10 % 10),
   BitVec.ofNat 8 (0x30 + serial % 10)]

/-- EXIT_RECORD (R172 to R175, R181): MALFORMED, FOREIGN and UNKNOWN records raise their counts; an EXPECTED one
verifies the front of the exit window; a LATE one sorts every member in front of its garment as MISSING, front first,
each reported for a reprint and appended (R178), brings the garment to 3,000 mm with its outcome where it stood short of
it, which recomputes the speed (R159), and verifies it. Nothing else changes. ENTRY_RECORD (R183 to R185): refused with the lamp REFUSED, or
without effect, or accepted as the re-feed claim with the lamp WAIT, which is tested at once where the gate is FREE
(R162): it waits with the reason of the failed step, or is admitted. The model's choice: a record command is the CR of
its line (log entry 14); the last reason reported is NONE once the claim is admitted (log entry 40); the line, for the
lamp GO, is appended before the garment that takes CURE_RANGE (log entry 11). -/
def Obligations.MarkRecords : Prop :=
  (∀ (chars : List Byte) (line serial : Nat), markOf chars = some (line, serial) ↔
    line < 1000 ∧ serial < 100000 ∧ chars = markText line serial) ∧
  (∀ (s : State) (chars : List Byte), s.alm.exit = { buffer := chars, discarding := false } → chars ≠ [] →
    let u : State := { s with alm := { s.alm with exit := { buffer := [], discarding := false } } }
    (markOf chars = none → ∃ t, exec .exitRecord s = .next t ∧
      Onward { u with exs := { s.exs with malformed := min 65535 (s.exs.malformed + 1) } } t) ∧
    ∀ line n, markOf chars = some (line, n) →
      (line ≠ s.prf.line.lineId → ∃ t, exec .exitRecord s = .next t ∧
        Onward (noted .line { u with exs := { s.exs with foreign := min 65535 (s.exs.foreign + 1) } }) t) ∧
      (line = s.prf.line.lineId → (∀ r ∈ s.ctc.tunnel, r.serial ≠ n) → ∃ t, exec .exitRecord s = .next t ∧
        Onward (noted .line { u with exs := { s.exs with unknown := min 65535 (s.exs.unknown + 1) } }) t) ∧
      (∀ r rest, line = s.prf.line.lineId → s.ctc.tunnel = r :: rest → r.serial = n → 30000 ≤ r.travel →
        ∃ t, exec .exitRecord s = .next t ∧
          Onward (regarment n (fun g => { g with verification := some .verified }) u) t) ∧
      ∀ front r rest, line = s.prf.line.lineId → s.ctc.tunnel = front ++ r :: rest → r.serial = n →
        (s.ctc.tunnel.map Rider.serial).Nodup → front ≠ [] ∨ r.travel < 30000 →
        ∃ w t, exec .exitRecord s = .next t ∧ Onward w t ∧
          w.ctc = { s.ctc with
            tunnel := { r with travel := max r.travel 30000 } :: rest
            selected := if r.travel < 30000 then selectSpeed w else s.ctc.selected } ∧
          (∀ f ∈ front, ∀ g, garment f.serial s = some g → garment f.serial w = some { g with
            defects := addTo .missing g.defects, verification := some .missing, stage := .sorted,
            location := .absent }) ∧
          (∀ g, garment n s = some g → garment n w = some (if r.travel < 30000 then
              { g with
                verification := some .verified, location := .belt 3000, stage := .inExit
                outcome := some (outcomeAt g) }
            else { g with verification := some .verified })) ∧
          (∀ m, (∀ f ∈ front, f.serial ≠ m) → m ≠ n → garment m w = garment m s) ∧
          (let x := front.foldl (fun v f => match garment f.serial s with
            | some g => sortReport .reprint g v
            | none => v) s
           w.ord = x.ord ∧ w.exs.bins = x.exs.bins ∧ w.ims = x.ims ∧
           ∀ ref, ref ∈ w.lnk.notices ↔ ref ∈ x.lnk.notices ∨ ∃ f ∈ front, ref = .garment f.serial) ∧
          { w.exs with bins := s.exs.bins } = s.exs ∧ { w.car with garments := s.car.garments } = s.car ∧
          { w.lnk with notices := s.lnk.notices } = s.lnk ∧ w.ims.store = s.ims.store ∧
          { w with lnk := s.lnk, ord := s.ord, ims := s.ims, car := s.car, ctc := s.ctc, exs := s.exs } = u) ∧
  ∀ (s : State) (chars : List Byte), s.alm.entry = { buffer := chars, discarding := false } → chars ≠ [] →
    let u : State := { s with alm := { s.alm with entry := { buffer := [], discarding := false } } }
    let lit : EntryLamp → State → State := fun l w =>
      { (if s.exs.lamp = l then w else noted .line w) with exs := { w.exs with lamp := l } }
    (markOf chars = none ∨ (∃ line n, markOf chars = some (line, n) ∧ (line ≠ s.prf.line.lineId ∨ n ∉ s.exs.recure ∨
        ∃ m, m ≠ n ∧ s.ctc.refeedClaim = some m)) →
      ∃ t, exec .entryRecord s = .next t ∧ Onward (lit .refused u) t) ∧
    ∀ n, markOf chars = some (s.prf.line.lineId, n) → n ∈ s.exs.recure →
      (s.ctc.refeedClaim = some n → ∃ t, exec .entryRecord s = .next t ∧ Onward u t) ∧
      (s.ctc.refeedClaim = none → ∃ v t, exec .entryRecord s = .next t ∧
        RefeedTested (lit .wait { u with ctc := { s.ctc with refeedClaim := some n } }) v ∧ Onward v t)

/-- RECURE_DROP (R186): NOT_FOUND off the recure list; else the garment is sorted with outcome DROPPED and no route, its
unit is reported for a reprint, and a waiting claim of its own is withdrawn with the lamp OFF. BIN_CLEAR (R19, R190):
RANGE; FREE stays; FILLING needs the force flag, and then its order loses the bin and is SPLIT; COMPLETE is freed and
its order retired (R20). The model's choice: the order of the references appended at one event (log entry 11), and that
a dropped garment's route becomes absent (log entry 26). -/
def Obligations.DropAndClear : Prop :=
  (∀ (tag : Byte) (n : Nat) (s : State), Reads s →
    (n ∉ s.exs.recure → exec (.recureDrop tag n) s = .next (replied 0x39 tag .notFound [] s)) ∧
    ∀ g, n ∈ s.exs.recure → garment n s = some g →
      ∃ t, exec (.recureDrop tag n) s = .next t ∧
        t.lnk.reply = some { kind := 0xB9, tag := tag, body := [0x00] } ∧ .garment n ∈ t.lnk.notices ∧
        garment n t = some { g with outcome := some .dropped, route := none, stage := .sorted, location := .absent } ∧
        (∀ m, m ≠ n → garment m t = garment m s) ∧ t.exs.recure = s.exs.recure.filter (· != n) ∧
        t.ctc = { s.ctc with
          refeedClaim := if s.ctc.refeedClaim = some n then none else s.ctc.refeedClaim } ∧
        t.exs.lamp = (if s.ctc.refeedClaim = some n then .off else s.exs.lamp) ∧
        t.exs.diverter = s.exs.diverter ∧ t.exs.hold = s.exs.hold ∧ t.prf = s.prf ∧ t.pins = s.pins ∧
        t.ord = (sortReport .reprint g s).ord ∧ t.ims = (sortReport .reprint g s).ims ∧
        t.exs.bins = (sortReport .reprint g s).exs.bins ∧
        t.ptr = s.ptr ∧ t.shf = s.shf ∧ t.fdp = s.fdp ∧ t.alm = s.alm ∧ t.ims.store = s.ims.store ∧
        { t.car with garments := s.car.garments } = s.car) ∧
  ∀ (tag : Byte) (n force : Nat) (s : State), Reads s →
    (n = 0 ∨ 24 < n ∨ 2 ≤ force → exec (.binClear tag n force) s = .next (replied 0x3A tag .range [] s)) ∧
    (1 ≤ n → n ≤ 24 → force < 2 →
      ((binAt n s).state = .free → exec (.binClear tag n force) s = .next (replied 0x3A tag .ok [] s)) ∧
      ((binAt n s).state = .filling → force = 0 →
        exec (.binClear tag n force) s = .next (replied 0x3A tag .state [] s)) ∧
      ∀ id slot o, Keyed s → Shaped s → (binAt n s).order = some id → orderOf id s = some (slot, o) →
        ((binAt n s).state = .filling → force = 1 →
          exec (.binClear tag n force) s = .next (replied 0x3A tag .ok [] (noted (.order slot) (noted (.bin n) { s with
            exs := { s.exs with bins := s.exs.bins.set (n - 1) { state := .free, order := none, count := 0 } }
            ord := { s.ord with
              orders := tabMap slot (fun o => { o with bin := none, split := true }) s.ord.orders } })))) ∧
        ((binAt n s).state = .complete →
          exec (.binClear tag n force) s = .next (replied 0x3A tag .ok []
            (retiredAt slot (binned n { state := .free, order := none, count := 0 } s)))))
end

