-- ==== Sys2Proof/Laws/State.lean ====
section
/-!
SUPPORT. One lemma per field per block update, true by `rfl`, so that no proof unfolds a record update.
-/

namespace Sys2Proof.Machine

@[simp] theorem State.withPins_clock (f : Pins → Pins) (s : State) : (s.withPins f).clock = s.clock := rfl
@[simp] theorem State.withPins_pins (f : Pins → Pins) (s : State) : (s.withPins f).pins = f s.pins := rfl
@[simp] theorem State.withPins_lnk (f : Pins → Pins) (s : State) : (s.withPins f).lnk = s.lnk := rfl
@[simp] theorem State.withPins_ord (f : Pins → Pins) (s : State) : (s.withPins f).ord = s.ord := rfl
@[simp] theorem State.withPins_ims (f : Pins → Pins) (s : State) : (s.withPins f).ims = s.ims := rfl
@[simp] theorem State.withPins_prf (f : Pins → Pins) (s : State) : (s.withPins f).prf = s.prf := rfl
@[simp] theorem State.withPins_car (f : Pins → Pins) (s : State) : (s.withPins f).car = s.car := rfl
@[simp] theorem State.withPins_ptr (f : Pins → Pins) (s : State) : (s.withPins f).ptr = s.ptr := rfl
@[simp] theorem State.withPins_shf (f : Pins → Pins) (s : State) : (s.withPins f).shf = s.shf := rfl
@[simp] theorem State.withPins_fdp (f : Pins → Pins) (s : State) : (s.withPins f).fdp = s.fdp := rfl
@[simp] theorem State.withPins_ctc (f : Pins → Pins) (s : State) : (s.withPins f).ctc = s.ctc := rfl
@[simp] theorem State.withPins_exs (f : Pins → Pins) (s : State) : (s.withPins f).exs = s.exs := rfl
@[simp] theorem State.withPins_alm (f : Pins → Pins) (s : State) : (s.withPins f).alm = s.alm := rfl
@[simp] theorem State.withPins_pending (f : Pins → Pins) (s : State) : (s.withPins f).pending = s.pending := rfl

@[simp] theorem State.withLnk_clock (f : Lnk → Lnk) (s : State) : (s.withLnk f).clock = s.clock := rfl
@[simp] theorem State.withLnk_pins (f : Lnk → Lnk) (s : State) : (s.withLnk f).pins = s.pins := rfl
@[simp] theorem State.withLnk_lnk (f : Lnk → Lnk) (s : State) : (s.withLnk f).lnk = f s.lnk := rfl
@[simp] theorem State.withLnk_ord (f : Lnk → Lnk) (s : State) : (s.withLnk f).ord = s.ord := rfl
@[simp] theorem State.withLnk_ims (f : Lnk → Lnk) (s : State) : (s.withLnk f).ims = s.ims := rfl
@[simp] theorem State.withLnk_prf (f : Lnk → Lnk) (s : State) : (s.withLnk f).prf = s.prf := rfl
@[simp] theorem State.withLnk_car (f : Lnk → Lnk) (s : State) : (s.withLnk f).car = s.car := rfl
@[simp] theorem State.withLnk_ptr (f : Lnk → Lnk) (s : State) : (s.withLnk f).ptr = s.ptr := rfl
@[simp] theorem State.withLnk_shf (f : Lnk → Lnk) (s : State) : (s.withLnk f).shf = s.shf := rfl
@[simp] theorem State.withLnk_fdp (f : Lnk → Lnk) (s : State) : (s.withLnk f).fdp = s.fdp := rfl
@[simp] theorem State.withLnk_ctc (f : Lnk → Lnk) (s : State) : (s.withLnk f).ctc = s.ctc := rfl
@[simp] theorem State.withLnk_exs (f : Lnk → Lnk) (s : State) : (s.withLnk f).exs = s.exs := rfl
@[simp] theorem State.withLnk_alm (f : Lnk → Lnk) (s : State) : (s.withLnk f).alm = s.alm := rfl
@[simp] theorem State.withLnk_pending (f : Lnk → Lnk) (s : State) : (s.withLnk f).pending = s.pending := rfl

@[simp] theorem State.withOrd_clock (f : Ord → Ord) (s : State) : (s.withOrd f).clock = s.clock := rfl
@[simp] theorem State.withOrd_pins (f : Ord → Ord) (s : State) : (s.withOrd f).pins = s.pins := rfl
@[simp] theorem State.withOrd_lnk (f : Ord → Ord) (s : State) : (s.withOrd f).lnk = s.lnk := rfl
@[simp] theorem State.withOrd_ord (f : Ord → Ord) (s : State) : (s.withOrd f).ord = f s.ord := rfl
@[simp] theorem State.withOrd_ims (f : Ord → Ord) (s : State) : (s.withOrd f).ims = s.ims := rfl
@[simp] theorem State.withOrd_prf (f : Ord → Ord) (s : State) : (s.withOrd f).prf = s.prf := rfl
@[simp] theorem State.withOrd_car (f : Ord → Ord) (s : State) : (s.withOrd f).car = s.car := rfl
@[simp] theorem State.withOrd_ptr (f : Ord → Ord) (s : State) : (s.withOrd f).ptr = s.ptr := rfl
@[simp] theorem State.withOrd_shf (f : Ord → Ord) (s : State) : (s.withOrd f).shf = s.shf := rfl
@[simp] theorem State.withOrd_fdp (f : Ord → Ord) (s : State) : (s.withOrd f).fdp = s.fdp := rfl
@[simp] theorem State.withOrd_ctc (f : Ord → Ord) (s : State) : (s.withOrd f).ctc = s.ctc := rfl
@[simp] theorem State.withOrd_exs (f : Ord → Ord) (s : State) : (s.withOrd f).exs = s.exs := rfl
@[simp] theorem State.withOrd_alm (f : Ord → Ord) (s : State) : (s.withOrd f).alm = s.alm := rfl
@[simp] theorem State.withOrd_pending (f : Ord → Ord) (s : State) : (s.withOrd f).pending = s.pending := rfl

@[simp] theorem State.withIms_clock (f : Ims → Ims) (s : State) : (s.withIms f).clock = s.clock := rfl
@[simp] theorem State.withIms_pins (f : Ims → Ims) (s : State) : (s.withIms f).pins = s.pins := rfl
@[simp] theorem State.withIms_lnk (f : Ims → Ims) (s : State) : (s.withIms f).lnk = s.lnk := rfl
@[simp] theorem State.withIms_ord (f : Ims → Ims) (s : State) : (s.withIms f).ord = s.ord := rfl
@[simp] theorem State.withIms_ims (f : Ims → Ims) (s : State) : (s.withIms f).ims = f s.ims := rfl
@[simp] theorem State.withIms_prf (f : Ims → Ims) (s : State) : (s.withIms f).prf = s.prf := rfl
@[simp] theorem State.withIms_car (f : Ims → Ims) (s : State) : (s.withIms f).car = s.car := rfl
@[simp] theorem State.withIms_ptr (f : Ims → Ims) (s : State) : (s.withIms f).ptr = s.ptr := rfl
@[simp] theorem State.withIms_shf (f : Ims → Ims) (s : State) : (s.withIms f).shf = s.shf := rfl
@[simp] theorem State.withIms_fdp (f : Ims → Ims) (s : State) : (s.withIms f).fdp = s.fdp := rfl
@[simp] theorem State.withIms_ctc (f : Ims → Ims) (s : State) : (s.withIms f).ctc = s.ctc := rfl
@[simp] theorem State.withIms_exs (f : Ims → Ims) (s : State) : (s.withIms f).exs = s.exs := rfl
@[simp] theorem State.withIms_alm (f : Ims → Ims) (s : State) : (s.withIms f).alm = s.alm := rfl
@[simp] theorem State.withIms_pending (f : Ims → Ims) (s : State) : (s.withIms f).pending = s.pending := rfl

@[simp] theorem State.withPrf_clock (f : Prf → Prf) (s : State) : (s.withPrf f).clock = s.clock := rfl
@[simp] theorem State.withPrf_pins (f : Prf → Prf) (s : State) : (s.withPrf f).pins = s.pins := rfl
@[simp] theorem State.withPrf_lnk (f : Prf → Prf) (s : State) : (s.withPrf f).lnk = s.lnk := rfl
@[simp] theorem State.withPrf_ord (f : Prf → Prf) (s : State) : (s.withPrf f).ord = s.ord := rfl
@[simp] theorem State.withPrf_ims (f : Prf → Prf) (s : State) : (s.withPrf f).ims = s.ims := rfl
@[simp] theorem State.withPrf_prf (f : Prf → Prf) (s : State) : (s.withPrf f).prf = f s.prf := rfl
@[simp] theorem State.withPrf_car (f : Prf → Prf) (s : State) : (s.withPrf f).car = s.car := rfl
@[simp] theorem State.withPrf_ptr (f : Prf → Prf) (s : State) : (s.withPrf f).ptr = s.ptr := rfl
@[simp] theorem State.withPrf_shf (f : Prf → Prf) (s : State) : (s.withPrf f).shf = s.shf := rfl
@[simp] theorem State.withPrf_fdp (f : Prf → Prf) (s : State) : (s.withPrf f).fdp = s.fdp := rfl
@[simp] theorem State.withPrf_ctc (f : Prf → Prf) (s : State) : (s.withPrf f).ctc = s.ctc := rfl
@[simp] theorem State.withPrf_exs (f : Prf → Prf) (s : State) : (s.withPrf f).exs = s.exs := rfl
@[simp] theorem State.withPrf_alm (f : Prf → Prf) (s : State) : (s.withPrf f).alm = s.alm := rfl
@[simp] theorem State.withPrf_pending (f : Prf → Prf) (s : State) : (s.withPrf f).pending = s.pending := rfl

@[simp] theorem State.withCar_clock (f : Car → Car) (s : State) : (s.withCar f).clock = s.clock := rfl
@[simp] theorem State.withCar_pins (f : Car → Car) (s : State) : (s.withCar f).pins = s.pins := rfl
@[simp] theorem State.withCar_lnk (f : Car → Car) (s : State) : (s.withCar f).lnk = s.lnk := rfl
@[simp] theorem State.withCar_ord (f : Car → Car) (s : State) : (s.withCar f).ord = s.ord := rfl
@[simp] theorem State.withCar_ims (f : Car → Car) (s : State) : (s.withCar f).ims = s.ims := rfl
@[simp] theorem State.withCar_prf (f : Car → Car) (s : State) : (s.withCar f).prf = s.prf := rfl
@[simp] theorem State.withCar_car (f : Car → Car) (s : State) : (s.withCar f).car = f s.car := rfl
@[simp] theorem State.withCar_ptr (f : Car → Car) (s : State) : (s.withCar f).ptr = s.ptr := rfl
@[simp] theorem State.withCar_shf (f : Car → Car) (s : State) : (s.withCar f).shf = s.shf := rfl
@[simp] theorem State.withCar_fdp (f : Car → Car) (s : State) : (s.withCar f).fdp = s.fdp := rfl
@[simp] theorem State.withCar_ctc (f : Car → Car) (s : State) : (s.withCar f).ctc = s.ctc := rfl
@[simp] theorem State.withCar_exs (f : Car → Car) (s : State) : (s.withCar f).exs = s.exs := rfl
@[simp] theorem State.withCar_alm (f : Car → Car) (s : State) : (s.withCar f).alm = s.alm := rfl
@[simp] theorem State.withCar_pending (f : Car → Car) (s : State) : (s.withCar f).pending = s.pending := rfl

@[simp] theorem State.withPtr_clock (f : Ptr → Ptr) (s : State) : (s.withPtr f).clock = s.clock := rfl
@[simp] theorem State.withPtr_pins (f : Ptr → Ptr) (s : State) : (s.withPtr f).pins = s.pins := rfl
@[simp] theorem State.withPtr_lnk (f : Ptr → Ptr) (s : State) : (s.withPtr f).lnk = s.lnk := rfl
@[simp] theorem State.withPtr_ord (f : Ptr → Ptr) (s : State) : (s.withPtr f).ord = s.ord := rfl
@[simp] theorem State.withPtr_ims (f : Ptr → Ptr) (s : State) : (s.withPtr f).ims = s.ims := rfl
@[simp] theorem State.withPtr_prf (f : Ptr → Ptr) (s : State) : (s.withPtr f).prf = s.prf := rfl
@[simp] theorem State.withPtr_car (f : Ptr → Ptr) (s : State) : (s.withPtr f).car = s.car := rfl
@[simp] theorem State.withPtr_ptr (f : Ptr → Ptr) (s : State) : (s.withPtr f).ptr = f s.ptr := rfl
@[simp] theorem State.withPtr_shf (f : Ptr → Ptr) (s : State) : (s.withPtr f).shf = s.shf := rfl
@[simp] theorem State.withPtr_fdp (f : Ptr → Ptr) (s : State) : (s.withPtr f).fdp = s.fdp := rfl
@[simp] theorem State.withPtr_ctc (f : Ptr → Ptr) (s : State) : (s.withPtr f).ctc = s.ctc := rfl
@[simp] theorem State.withPtr_exs (f : Ptr → Ptr) (s : State) : (s.withPtr f).exs = s.exs := rfl
@[simp] theorem State.withPtr_alm (f : Ptr → Ptr) (s : State) : (s.withPtr f).alm = s.alm := rfl
@[simp] theorem State.withPtr_pending (f : Ptr → Ptr) (s : State) : (s.withPtr f).pending = s.pending := rfl

@[simp] theorem State.withShf_clock (f : Shf → Shf) (s : State) : (s.withShf f).clock = s.clock := rfl
@[simp] theorem State.withShf_pins (f : Shf → Shf) (s : State) : (s.withShf f).pins = s.pins := rfl
@[simp] theorem State.withShf_lnk (f : Shf → Shf) (s : State) : (s.withShf f).lnk = s.lnk := rfl
@[simp] theorem State.withShf_ord (f : Shf → Shf) (s : State) : (s.withShf f).ord = s.ord := rfl
@[simp] theorem State.withShf_ims (f : Shf → Shf) (s : State) : (s.withShf f).ims = s.ims := rfl
@[simp] theorem State.withShf_prf (f : Shf → Shf) (s : State) : (s.withShf f).prf = s.prf := rfl
@[simp] theorem State.withShf_car (f : Shf → Shf) (s : State) : (s.withShf f).car = s.car := rfl
@[simp] theorem State.withShf_ptr (f : Shf → Shf) (s : State) : (s.withShf f).ptr = s.ptr := rfl
@[simp] theorem State.withShf_shf (f : Shf → Shf) (s : State) : (s.withShf f).shf = f s.shf := rfl
@[simp] theorem State.withShf_fdp (f : Shf → Shf) (s : State) : (s.withShf f).fdp = s.fdp := rfl
@[simp] theorem State.withShf_ctc (f : Shf → Shf) (s : State) : (s.withShf f).ctc = s.ctc := rfl
@[simp] theorem State.withShf_exs (f : Shf → Shf) (s : State) : (s.withShf f).exs = s.exs := rfl
@[simp] theorem State.withShf_alm (f : Shf → Shf) (s : State) : (s.withShf f).alm = s.alm := rfl
@[simp] theorem State.withShf_pending (f : Shf → Shf) (s : State) : (s.withShf f).pending = s.pending := rfl

@[simp] theorem State.withFdp_clock (f : Fdp → Fdp) (s : State) : (s.withFdp f).clock = s.clock := rfl
@[simp] theorem State.withFdp_pins (f : Fdp → Fdp) (s : State) : (s.withFdp f).pins = s.pins := rfl
@[simp] theorem State.withFdp_lnk (f : Fdp → Fdp) (s : State) : (s.withFdp f).lnk = s.lnk := rfl
@[simp] theorem State.withFdp_ord (f : Fdp → Fdp) (s : State) : (s.withFdp f).ord = s.ord := rfl
@[simp] theorem State.withFdp_ims (f : Fdp → Fdp) (s : State) : (s.withFdp f).ims = s.ims := rfl
@[simp] theorem State.withFdp_prf (f : Fdp → Fdp) (s : State) : (s.withFdp f).prf = s.prf := rfl
@[simp] theorem State.withFdp_car (f : Fdp → Fdp) (s : State) : (s.withFdp f).car = s.car := rfl
@[simp] theorem State.withFdp_ptr (f : Fdp → Fdp) (s : State) : (s.withFdp f).ptr = s.ptr := rfl
@[simp] theorem State.withFdp_shf (f : Fdp → Fdp) (s : State) : (s.withFdp f).shf = s.shf := rfl
@[simp] theorem State.withFdp_fdp (f : Fdp → Fdp) (s : State) : (s.withFdp f).fdp = f s.fdp := rfl
@[simp] theorem State.withFdp_ctc (f : Fdp → Fdp) (s : State) : (s.withFdp f).ctc = s.ctc := rfl
@[simp] theorem State.withFdp_exs (f : Fdp → Fdp) (s : State) : (s.withFdp f).exs = s.exs := rfl
@[simp] theorem State.withFdp_alm (f : Fdp → Fdp) (s : State) : (s.withFdp f).alm = s.alm := rfl
@[simp] theorem State.withFdp_pending (f : Fdp → Fdp) (s : State) : (s.withFdp f).pending = s.pending := rfl

@[simp] theorem State.withCtc_clock (f : Ctc → Ctc) (s : State) : (s.withCtc f).clock = s.clock := rfl
@[simp] theorem State.withCtc_pins (f : Ctc → Ctc) (s : State) : (s.withCtc f).pins = s.pins := rfl
@[simp] theorem State.withCtc_lnk (f : Ctc → Ctc) (s : State) : (s.withCtc f).lnk = s.lnk := rfl
@[simp] theorem State.withCtc_ord (f : Ctc → Ctc) (s : State) : (s.withCtc f).ord = s.ord := rfl
@[simp] theorem State.withCtc_ims (f : Ctc → Ctc) (s : State) : (s.withCtc f).ims = s.ims := rfl
@[simp] theorem State.withCtc_prf (f : Ctc → Ctc) (s : State) : (s.withCtc f).prf = s.prf := rfl
@[simp] theorem State.withCtc_car (f : Ctc → Ctc) (s : State) : (s.withCtc f).car = s.car := rfl
@[simp] theorem State.withCtc_ptr (f : Ctc → Ctc) (s : State) : (s.withCtc f).ptr = s.ptr := rfl
@[simp] theorem State.withCtc_shf (f : Ctc → Ctc) (s : State) : (s.withCtc f).shf = s.shf := rfl
@[simp] theorem State.withCtc_fdp (f : Ctc → Ctc) (s : State) : (s.withCtc f).fdp = s.fdp := rfl
@[simp] theorem State.withCtc_ctc (f : Ctc → Ctc) (s : State) : (s.withCtc f).ctc = f s.ctc := rfl
@[simp] theorem State.withCtc_exs (f : Ctc → Ctc) (s : State) : (s.withCtc f).exs = s.exs := rfl
@[simp] theorem State.withCtc_alm (f : Ctc → Ctc) (s : State) : (s.withCtc f).alm = s.alm := rfl
@[simp] theorem State.withCtc_pending (f : Ctc → Ctc) (s : State) : (s.withCtc f).pending = s.pending := rfl

@[simp] theorem State.withExs_clock (f : Exs → Exs) (s : State) : (s.withExs f).clock = s.clock := rfl
@[simp] theorem State.withExs_pins (f : Exs → Exs) (s : State) : (s.withExs f).pins = s.pins := rfl
@[simp] theorem State.withExs_lnk (f : Exs → Exs) (s : State) : (s.withExs f).lnk = s.lnk := rfl
@[simp] theorem State.withExs_ord (f : Exs → Exs) (s : State) : (s.withExs f).ord = s.ord := rfl
@[simp] theorem State.withExs_ims (f : Exs → Exs) (s : State) : (s.withExs f).ims = s.ims := rfl
@[simp] theorem State.withExs_prf (f : Exs → Exs) (s : State) : (s.withExs f).prf = s.prf := rfl
@[simp] theorem State.withExs_car (f : Exs → Exs) (s : State) : (s.withExs f).car = s.car := rfl
@[simp] theorem State.withExs_ptr (f : Exs → Exs) (s : State) : (s.withExs f).ptr = s.ptr := rfl
@[simp] theorem State.withExs_shf (f : Exs → Exs) (s : State) : (s.withExs f).shf = s.shf := rfl
@[simp] theorem State.withExs_fdp (f : Exs → Exs) (s : State) : (s.withExs f).fdp = s.fdp := rfl
@[simp] theorem State.withExs_ctc (f : Exs → Exs) (s : State) : (s.withExs f).ctc = s.ctc := rfl
@[simp] theorem State.withExs_exs (f : Exs → Exs) (s : State) : (s.withExs f).exs = f s.exs := rfl
@[simp] theorem State.withExs_alm (f : Exs → Exs) (s : State) : (s.withExs f).alm = s.alm := rfl
@[simp] theorem State.withExs_pending (f : Exs → Exs) (s : State) : (s.withExs f).pending = s.pending := rfl

@[simp] theorem State.withAlm_clock (f : Alm → Alm) (s : State) : (s.withAlm f).clock = s.clock := rfl
@[simp] theorem State.withAlm_pins (f : Alm → Alm) (s : State) : (s.withAlm f).pins = s.pins := rfl
@[simp] theorem State.withAlm_lnk (f : Alm → Alm) (s : State) : (s.withAlm f).lnk = s.lnk := rfl
@[simp] theorem State.withAlm_ord (f : Alm → Alm) (s : State) : (s.withAlm f).ord = s.ord := rfl
@[simp] theorem State.withAlm_ims (f : Alm → Alm) (s : State) : (s.withAlm f).ims = s.ims := rfl
@[simp] theorem State.withAlm_prf (f : Alm → Alm) (s : State) : (s.withAlm f).prf = s.prf := rfl
@[simp] theorem State.withAlm_car (f : Alm → Alm) (s : State) : (s.withAlm f).car = s.car := rfl
@[simp] theorem State.withAlm_ptr (f : Alm → Alm) (s : State) : (s.withAlm f).ptr = s.ptr := rfl
@[simp] theorem State.withAlm_shf (f : Alm → Alm) (s : State) : (s.withAlm f).shf = s.shf := rfl
@[simp] theorem State.withAlm_fdp (f : Alm → Alm) (s : State) : (s.withAlm f).fdp = s.fdp := rfl
@[simp] theorem State.withAlm_ctc (f : Alm → Alm) (s : State) : (s.withAlm f).ctc = s.ctc := rfl
@[simp] theorem State.withAlm_exs (f : Alm → Alm) (s : State) : (s.withAlm f).exs = s.exs := rfl
@[simp] theorem State.withAlm_alm (f : Alm → Alm) (s : State) : (s.withAlm f).alm = f s.alm := rfl
@[simp] theorem State.withAlm_pending (f : Alm → Alm) (s : State) : (s.withAlm f).pending = s.pending := rfl

end Sys2Proof.Machine
end

