-- ==== Sys2Proof/Laws/Frames.lean ====
section
/-!
SUPPORT. What each shared operation may write: one lemma an operation, naming the blocks that it may change; every
other block, the clock, and the queue stay as they are.
-/

namespace Sys2Proof.Machine

/-- The blocks of the state. -/
inductive Block where
  | pins | lnk | ord | ims | prf | car | ptr | shf | fdp | ctc | exs | alm
deriving DecidableEq, Repr

/-- `t` is `s` outside the blocks of `m`. -/
structure Touches (m : List Block) (s t : State) : Prop where
  clock : t.clock = s.clock
  pending : t.pending = s.pending
  pins : m.contains .pins = false → t.pins = s.pins
  lnk : m.contains .lnk = false → t.lnk = s.lnk
  ord : m.contains .ord = false → t.ord = s.ord
  ims : m.contains .ims = false → t.ims = s.ims
  prf : m.contains .prf = false → t.prf = s.prf
  car : m.contains .car = false → t.car = s.car
  ptr : m.contains .ptr = false → t.ptr = s.ptr
  shf : m.contains .shf = false → t.shf = s.shf
  fdp : m.contains .fdp = false → t.fdp = s.fdp
  ctc : m.contains .ctc = false → t.ctc = s.ctc
  exs : m.contains .exs = false → t.exs = s.exs
  alm : m.contains .alm = false → t.alm = s.alm

theorem Touches.refl (m : List Block) (s : State) : Touches m s s :=
  ⟨rfl, rfl, fun _ => rfl, fun _ => rfl, fun _ => rfl, fun _ => rfl, fun _ => rfl, fun _ => rfl, fun _ => rfl,
    fun _ => rfl, fun _ => rfl, fun _ => rfl, fun _ => rfl, fun _ => rfl⟩

/-- Every block of `m` is one of `n`. -/
def subBlocks (m n : List Block) : Bool := m.all n.contains

theorem contains_of_sub {m n : List Block} (h : subBlocks m n = true) {b : Block} (hb : n.contains b = false) :
    m.contains b = false := by
  by_contra hc
  have hm : b ∈ m := by simpa using hc
  have := (List.all_eq_true.mp h) b hm
  rw [hb] at this
  cases this

/-- One operation more: what it may write lies within what the whole may write. -/
theorem Touches.step {m n : List Block} {s t u : State} (h : Touches n s t) (k : Touches m t u)
    (hs : subBlocks m n = true) : Touches n s u :=
  ⟨k.clock.trans h.clock, k.pending.trans h.pending,
    fun e => (k.pins (contains_of_sub hs e)).trans (h.pins e), fun e => (k.lnk (contains_of_sub hs e)).trans (h.lnk e),
    fun e => (k.ord (contains_of_sub hs e)).trans (h.ord e), fun e => (k.ims (contains_of_sub hs e)).trans (h.ims e),
    fun e => (k.prf (contains_of_sub hs e)).trans (h.prf e), fun e => (k.car (contains_of_sub hs e)).trans (h.car e),
    fun e => (k.ptr (contains_of_sub hs e)).trans (h.ptr e), fun e => (k.shf (contains_of_sub hs e)).trans (h.shf e),
    fun e => (k.fdp (contains_of_sub hs e)).trans (h.fdp e), fun e => (k.ctc (contains_of_sub hs e)).trans (h.ctc e),
    fun e => (k.exs (contains_of_sub hs e)).trans (h.exs e), fun e => (k.alm (contains_of_sub hs e)).trans (h.alm e)⟩

theorem subBlocks_self (m : List Block) : subBlocks m m = true := by
  simp [subBlocks, List.all_eq_true]

/-- A fold whose every round writes blocks of `m` alone writes blocks of `m` alone. -/
theorem Touches.foldl {β : Type} {m : List Block} {f : State → β → State} (h : ∀ a b, Touches m a (f a b))
    (l : List β) (s : State) : Touches m s (l.foldl f s) := by
  induction l generalizing s with
  | nil => exact Touches.refl _ _
  | cons b l ih => exact Touches.step (h s b) (ih _) (subBlocks_self m)

/-- The same for a fold that carries the page-read results along. -/
theorem Touches.foldlPair {β γ : Type} {m : List Block} {f : State × γ → β → State × γ}
    (h : ∀ a b, Touches m a.1 (f a b).1) (l : List β) (p : State × γ) : Touches m p.1 (l.foldl f p).1 := by
  induction l generalizing p with
  | nil => exact Touches.refl _ _
  | cons b l ih => exact Touches.step (h p b) (ih _) (subBlocks_self m)

theorem Touches.stepFoldl {β : Type} {m : List Block} {f : State → β → State} {s t : State} (k : Touches m s t)
    (l : List β) (h : ∀ a b, Touches m a (f a b)) : Touches m s (l.foldl f t) :=
  Touches.step k (Touches.foldl h l t) (subBlocks_self m)

theorem Touches.stepFoldlPair {β γ : Type} {m : List Block} {f : State × γ → β → State × γ} {s : State}
    {p : State × γ} (k : Touches m s p.1) (l : List β) (h : ∀ a b, Touches m a.1 (f a b).1) :
    Touches m s (l.foldl f p).1 :=
  Touches.step k (Touches.foldlPair h l p) (subBlocks_self m)

theorem Touches.ofRefuse {m : List Block} {s t : State} {st : Status} (h : Touches m s t) :
    Touches m s (refuse st t).state := h

theorem Touches.ofAccept {m : List Block} {s t : State} {c : Bool} (h : Touches m s t) :
    Touches m s (accept c t).state := h

theorem Touches.ofAnswer {m : List Block} {s t : State} {bs : List Byte} (h : Touches m s t) :
    Touches m s (answer bs t).state := h

theorem State.withPins_frame (f : Pins → Pins) (s : State) : Touches [.pins] s (s.withPins f) := by
  constructor <;> simp
theorem State.withLnk_frame (f : Lnk → Lnk) (s : State) : Touches [.lnk] s (s.withLnk f) := by
  constructor <;> simp
theorem State.withOrd_frame (f : Ord → Ord) (s : State) : Touches [.ord] s (s.withOrd f) := by
  constructor <;> simp
theorem State.withIms_frame (f : Ims → Ims) (s : State) : Touches [.ims] s (s.withIms f) := by
  constructor <;> simp
theorem State.withPrf_frame (f : Prf → Prf) (s : State) : Touches [.prf] s (s.withPrf f) := by
  constructor <;> simp
theorem State.withCar_frame (f : Car → Car) (s : State) : Touches [.car] s (s.withCar f) := by
  constructor <;> simp
theorem State.withPtr_frame (f : Ptr → Ptr) (s : State) : Touches [.ptr] s (s.withPtr f) := by
  constructor <;> simp
theorem State.withShf_frame (f : Shf → Shf) (s : State) : Touches [.shf] s (s.withShf f) := by
  constructor <;> simp
theorem State.withFdp_frame (f : Fdp → Fdp) (s : State) : Touches [.fdp] s (s.withFdp f) := by
  constructor <;> simp
theorem State.withCtc_frame (f : Ctc → Ctc) (s : State) : Touches [.ctc] s (s.withCtc f) := by
  constructor <;> simp
theorem State.withExs_frame (f : Exs → Exs) (s : State) : Touches [.exs] s (s.withExs f) := by
  constructor <;> simp
theorem State.withAlm_frame (f : Alm → Alm) (s : State) : Touches [.alm] s (s.withAlm f) := by
  constructor <;> simp

theorem note_frame (r : Ref) (s : State) : Touches [.lnk] s (note r s) := by
  unfold note
  repeat' first
    | decide
    | with_reducible exact Touches.refl _ _
    | with_reducible refine Touches.step ?_ (State.withLnk_frame _ _) ?_

theorem setStation_frame (st : Station) (r : StationRec) (s : State) : Touches [.car] s (setStation st r s) := by
  unfold setStation
  repeat' first
    | decide
    | with_reducible exact Touches.refl _ _
    | with_reducible refine Touches.step ?_ (State.withCar_frame _ _) ?_

theorem setContents_frame (st : Station) (c : Contents) (s : State) : Touches [.car] s (setContents st c s) := by
  unfold setContents
  repeat' first
    | decide
    | with_reducible exact Touches.refl _ _
    | with_reducible refine Touches.step ?_ (State.withCar_frame _ _) ?_

theorem setHold_frame (st : Station) (h : Hold) (s : State) : Touches [.lnk, .car] s (setHold st h s) := by
  unfold setHold
  repeat' first
    | decide
    | with_reducible exact Touches.refl _ _
    | with_reducible refine Touches.step ?_ (setStation_frame _ _ _) ?_
    | with_reducible refine Touches.step ?_ (note_frame _ _) ?_
    | split

theorem release_frame (st : Station) (s : State) : Touches [.lnk, .car] s (release st s) := by
  unfold release
  repeat' first
    | decide
    | with_reducible exact Touches.refl _ _
    | with_reducible refine Touches.step ?_ (setHold_frame _ _ _) ?_
    | with_reducible refine Touches.step ?_ (setStation_frame _ _ _) ?_

theorem withGarment_frame (serial : Nat) (f : Garment → Garment) (s : State) :
    Touches [.car] s (withGarment serial f s) := by
  unfold withGarment
  repeat' first
    | decide
    | with_reducible exact Touches.refl _ _
    | with_reducible refine Touches.step ?_ (State.withCar_frame _ _) ?_

theorem addDefect_frame (serial : Nat) (d : Defect) (s : State) : Touches [.car] s (addDefect serial d s) := by
  unfold addDefect
  repeat' first
    | decide
    | with_reducible exact Touches.refl _ _
    | with_reducible refine Touches.step ?_ (withGarment_frame _ _ _) ?_

theorem addWarning_frame (serial : Nat) (w : Warning) (s : State) : Touches [.car] s (addWarning serial w s) := by
  unfold addWarning
  repeat' first
    | decide
    | with_reducible exact Touches.refl _ _
    | with_reducible refine Touches.step ?_ (withGarment_frame _ _ _) ?_

theorem setStage_frame (serial : Nat) (st : Stage) (s : State) : Touches [.car] s (setStage serial st s) := by
  unfold setStage
  repeat' first
    | decide
    | with_reducible exact Touches.refl _ _
    | with_reducible refine Touches.step ?_ (withGarment_frame _ _ _) ?_

theorem withImage_frame (slot : Nat) (f : Image → Image) (s : State) : Touches [.ims] s (withImage slot f s) := by
  unfold withImage
  repeat' first
    | decide
    | with_reducible exact Touches.refl _ _
    | with_reducible refine Touches.step ?_ (State.withIms_frame _ _) ?_

theorem withImageId_frame (id : Nat) (f : Image → Image) (s : State) : Touches [.ims] s (withImageId id f s) := by
  unfold withImageId
  repeat' first
    | decide
    | with_reducible exact Touches.refl _ _
    | with_reducible refine Touches.step ?_ (withImage_frame _ _ _) ?_
    | split

theorem returnImageRef_frame (serial : Nat) (s : State) : Touches [.ims] s (returnImageRef serial s) := by
  unfold returnImageRef
  repeat' first
    | decide
    | with_reducible exact Touches.refl _ _
    | with_reducible refine Touches.step ?_ (withImageId_frame _ _ _) ?_
    | split

theorem noteAlarm_frame (i : Nat) (s : State) : Touches [.lnk] s (noteAlarm i s) := by
  unfold noteAlarm
  repeat' first
    | decide
    | with_reducible exact Touches.refl _ _
    | with_reducible refine Touches.step ?_ (note_frame _ _) ?_
    | split

theorem withAlarm_frame (i : Nat) (f : Alarm → Alarm) (s : State) : Touches [.alm] s (withAlarm i f s) := by
  unfold withAlarm
  repeat' first
    | decide
    | with_reducible exact Touches.refl _ _
    | with_reducible refine Touches.step ?_ (State.withAlm_frame _ _) ?_

theorem onset_frame (i : Nat) (momentary : Bool) (s : State) : Touches [.lnk, .alm] s (onset i momentary s) := by
  unfold onset
  repeat' first
    | decide
    | with_reducible exact Touches.refl _ _
    | with_reducible refine Touches.step ?_ (withAlarm_frame _ _ _) ?_
    | with_reducible refine Touches.step ?_ (noteAlarm_frame _ _) ?_

theorem conditionEnd_frame (i : Nat) (s : State) : Touches [.lnk, .alm] s (conditionEnd i s) := by
  unfold conditionEnd
  repeat' first
    | decide
    | with_reducible exact Touches.refl _ _
    | with_reducible refine Touches.step ?_ (withAlarm_frame _ _ _) ?_
    | with_reducible refine Touches.step ?_ (noteAlarm_frame _ _) ?_
    | split

theorem reportCondition_frame (i : Nat) (now : Bool) (s : State) :
    Touches [.lnk, .alm] s (reportCondition i now s) := by
  unfold reportCondition
  repeat' first
    | decide
    | with_reducible exact Touches.refl _ _
    | with_reducible refine Touches.step ?_ (conditionEnd_frame _ _) ?_
    | with_reducible refine Touches.step ?_ (onset_frame _ _ _) ?_
    | split

theorem acknowledge_frame (i : Nat) (s : State) : Touches [.lnk, .alm] s (acknowledge i s) := by
  unfold acknowledge
  repeat' first
    | decide
    | with_reducible exact Touches.refl _ _
    | with_reducible refine Touches.step ?_ (withAlarm_frame _ _ _) ?_
    | with_reducible refine Touches.step ?_ (noteAlarm_frame _ _) ?_
    | split
    | dsimp only

theorem simulate_frame (i : Nat) (s : State) : Touches [.lnk, .alm] s (simulate i s) := by
  unfold simulate
  repeat' first
    | decide
    | with_reducible exact Touches.refl _ _
    | with_reducible refine Touches.step ?_ (withAlarm_frame _ _ _) ?_
    | with_reducible refine Touches.step ?_ (noteAlarm_frame _ _) ?_
    | split

theorem unsimulate_frame (i : Nat) (s : State) : Touches [.lnk, .alm] s (unsimulate i s) := by
  unfold unsimulate
  repeat' first
    | decide
    | with_reducible exact Touches.refl _ _
    | with_reducible refine Touches.step ?_ (withAlarm_frame _ _ _) ?_
    | with_reducible refine Touches.step ?_ (noteAlarm_frame _ _) ?_
    | split

theorem endDrill_frame (s : State) : Touches [.lnk, .alm] s (endDrill s) := by
  unfold endDrill
  repeat' first
    | decide
    | with_reducible exact Touches.refl _ _
    | with_reducible refine Touches.stepFoldl ?_ _ (fun _ _ => ?_)
    | with_reducible refine Touches.stepFoldlPair ?_ _ (fun _ _ => ?_)
    | with_reducible refine Touches.step ?_ (unsimulate_frame _ _) ?_
    | with_reducible refine Touches.step ?_ (State.withAlm_frame _ _) ?_

theorem withOrder_frame (slot : Nat) (f : Order → Order) (s : State) : Touches [.ord] s (withOrder slot f s) := by
  unfold withOrder
  repeat' first
    | decide
    | with_reducible exact Touches.refl _ _
    | with_reducible refine Touches.step ?_ (State.withOrd_frame _ _) ?_

theorem withUnit_frame (seq : Nat) (f : UnitRec → UnitRec) (s : State) : Touches [.ord] s (withUnit seq f s) := by
  unfold withUnit
  repeat' first
    | decide
    | with_reducible exact Touches.refl _ _
    | with_reducible refine Touches.step ?_ (State.withOrd_frame _ _) ?_

theorem handRef_frame (id : Option Nat) (s : State) : Touches [.ims] s (handRef id s) := by
  unfold handRef
  repeat' first
    | decide
    | with_reducible exact Touches.refl _ _
    | with_reducible refine Touches.step ?_ (withImageId_frame _ _ _) ?_
    | split

theorem takeRef_frame (id : Option Nat) (s : State) : Touches [.ims] s (takeRef id s) := by
  unfold takeRef
  repeat' first
    | decide
    | with_reducible exact Touches.refl _ _
    | with_reducible refine Touches.step ?_ (withImageId_frame _ _ _) ?_
    | split

theorem enqueue_frame (seq : Nat) (u : UnitRec) (s : State) : Touches [.ord, .ims] s (enqueue seq u s) := by
  unfold enqueue
  repeat' first
    | decide
    | with_reducible exact Touches.refl _ _
    | with_reducible refine Touches.step ?_ (handRef_frame _ _) ?_
    | with_reducible refine Touches.step ?_ (State.withOrd_frame _ _) ?_

theorem dequeue_frame (seq : Nat) (u : UnitRec) (s : State) : Touches [.ord, .ims] s (dequeue seq u s) := by
  unfold dequeue
  repeat' first
    | decide
    | with_reducible exact Touches.refl _ _
    | with_reducible refine Touches.step ?_ (takeRef_frame _ _) ?_
    | with_reducible refine Touches.step ?_ (State.withOrd_frame _ _) ?_

theorem moveUnit_frame (seq : Nat) (st : UnitState) (s : State) :
    Touches [.lnk, .ord, .ims] s (moveUnit seq st s) := by
  unfold moveUnit
  repeat' first
    | decide
    | with_reducible exact Touches.refl _ _
    | with_reducible refine Touches.step ?_ (dequeue_frame _ _ _) ?_
    | with_reducible refine Touches.step ?_ (enqueue_frame _ _ _) ?_
    | with_reducible refine Touches.step ?_ (withUnit_frame _ _ _) ?_
    | with_reducible refine Touches.step ?_ (withOrder_frame _ _ _) ?_
    | with_reducible refine Touches.step ?_ (note_frame _ _) ?_
    | split

theorem dropUnit_frame (seq : Nat) (s : State) : Touches [.lnk, .ord, .ims] s (dropUnit seq s) := by
  unfold dropUnit
  repeat' first
    | decide
    | with_reducible exact Touches.refl _ _
    | with_reducible refine Touches.step ?_ (dequeue_frame _ _ _) ?_
    | with_reducible refine Touches.step ?_ (withOrder_frame _ _ _) ?_
    | with_reducible refine Touches.step ?_ (note_frame _ _) ?_
    | with_reducible refine Touches.step ?_ (State.withOrd_frame _ _) ?_
    | split

theorem classUnit_frame (seq : Nat) (c : UnitClass) (s : State) : Touches [.ord] s (classUnit seq c s) := by
  unfold classUnit
  repeat' first
    | decide
    | with_reducible exact Touches.refl _ _
    | with_reducible refine Touches.step ?_ (withUnit_frame _ _ _) ?_
    | with_reducible refine Touches.step ?_ (State.withOrd_frame _ _) ?_
    | split

theorem setBin_frame (n : Nat) (b : Bin) (s : State) : Touches [.lnk, .exs] s (setBin n b s) := by
  unfold setBin
  repeat' first
    | decide
    | with_reducible exact Touches.refl _ _
    | with_reducible refine Touches.step ?_ (note_frame _ _) ?_
    | with_reducible refine Touches.step ?_ (State.withExs_frame _ _) ?_

theorem retire_frame (slot : Nat) (s : State) : Touches [.lnk, .ord, .ims] s (retire slot s) := by
  unfold retire
  repeat' first
    | decide
    | with_reducible exact Touches.refl _ _
    | with_reducible refine Touches.stepFoldl ?_ _ (fun _ _ => ?_)
    | with_reducible refine Touches.stepFoldlPair ?_ _ (fun _ _ => ?_)
    | with_reducible refine Touches.step ?_ (dequeue_frame _ _ _) ?_
    | with_reducible refine Touches.step ?_ (withOrder_frame _ _ _) ?_
    | with_reducible refine Touches.step ?_ (note_frame _ _) ?_
    | with_reducible refine Touches.step ?_ (State.withOrd_frame _ _) ?_
    | split

theorem retireCancelled_frame (slot : Nat) (s : State) :
    Touches [.lnk, .ord, .ims, .exs] s (retireCancelled slot s) := by
  unfold retireCancelled
  repeat' first
    | decide
    | with_reducible exact Touches.refl _ _
    | with_reducible refine Touches.step ?_ (retire_frame _ _) ?_
    | with_reducible refine Touches.step ?_ (setBin_frame _ _ _) ?_
    | split

theorem removeInLine_frame (slot seq : Nat) (s : State) :
    Touches [.lnk, .ord, .ims, .exs] s (removeInLine slot seq s) := by
  unfold removeInLine
  repeat' first
    | decide
    | with_reducible exact Touches.refl _ _
    | with_reducible refine Touches.step ?_ (retireCancelled_frame _ _) ?_
    | with_reducible refine Touches.step ?_ (dropUnit_frame _ _) ?_
    | split
    | dsimp only

theorem completeOrder_frame (slot : Nat) (s : State) :
    Touches [.lnk, .ord, .ims, .exs] s (completeOrder slot s) := by
  unfold completeOrder
  repeat' first
    | decide
    | with_reducible exact Touches.refl _ _
    | with_reducible refine Touches.step ?_ (retire_frame _ _) ?_
    | with_reducible refine Touches.step ?_ (setBin_frame _ _ _) ?_
    | with_reducible refine Touches.step ?_ (withOrder_frame _ _ _) ?_
    | with_reducible refine Touches.step ?_ (note_frame _ _) ?_
    | split

theorem reprintUnit_frame (slot seq : Nat) (s : State) :
    Touches [.lnk, .ord, .ims] s (reprintUnit slot seq s) := by
  unfold reprintUnit
  repeat' first
    | decide
    | with_reducible exact Touches.refl _ _
    | with_reducible refine Touches.step ?_ (classUnit_frame _ _ _) ?_
    | with_reducible refine Touches.step ?_ (moveUnit_frame _ _ _) ?_
    | with_reducible refine Touches.step ?_ (withOrder_frame _ _ _) ?_
    | split

theorem sortReport_frame (r : Report) (g : Garment) (s : State) :
    Touches [.lnk, .ord, .ims, .exs] s (sortReport r g s) := by
  unfold sortReport
  repeat' first
    | decide
    | with_reducible exact Touches.refl _ _
    | with_reducible refine Touches.step ?_ (reprintUnit_frame _ _ _) ?_
    | with_reducible refine Touches.step ?_ (completeOrder_frame _ _) ?_
    | with_reducible refine Touches.step ?_ (removeInLine_frame _ _ _) ?_
    | with_reducible refine Touches.step ?_ (moveUnit_frame _ _ _) ?_
    | split

theorem skipUnit_frame (g : Garment) (s : State) : Touches [.lnk, .ord, .ims, .exs] s (skipUnit g s) := by
  unfold skipUnit
  repeat' first
    | decide
    | with_reducible exact Touches.refl _ _
    | with_reducible refine Touches.step ?_ (removeInLine_frame _ _ _) ?_
    | with_reducible refine Touches.step ?_ (moveUnit_frame _ _ _) ?_
    | split

theorem imageReadyReport_frame (id : Nat) (s : State) : Touches [.lnk, .ord, .ims] s (imageReadyReport id s) := by
  unfold imageReadyReport
  repeat' first
    | decide
    | with_reducible exact Touches.refl _ _
    | with_reducible refine Touches.stepFoldl ?_ _ (fun _ _ => ?_)
    | with_reducible refine Touches.stepFoldlPair ?_ _ (fun _ _ => ?_)
    | with_reducible refine Touches.step ?_ (moveUnit_frame _ _ _) ?_
    | split

theorem imageDamagedReport_frame (id : Nat) (s : State) :
    Touches [.lnk, .ord, .ims] s (imageDamagedReport id s) := by
  unfold imageDamagedReport
  repeat' first
    | decide
    | with_reducible exact Touches.refl _ _
    | with_reducible refine Touches.stepFoldl ?_ _ (fun _ _ => ?_)
    | with_reducible refine Touches.stepFoldlPair ?_ _ (fun _ _ => ?_)
    | with_reducible refine Touches.step ?_ (moveUnit_frame _ _ _) ?_
    | split

theorem imageDeletedReport_frame (_id : Nat) (s : State) : Touches [] s (imageDeletedReport _id s) := by
  unfold imageDeletedReport
  repeat' first
    | decide
    | with_reducible exact Touches.refl _ _

theorem addUnit_frame (slot item index : Nat) (cls : UnitClass) (image : Nat) (s : State) :
    Touches [.ord, .ims] s (addUnit slot item index cls image s) := by
  unfold addUnit
  repeat' first
    | decide
    | with_reducible exact Touches.refl _ _
    | with_reducible refine Touches.step ?_ (enqueue_frame _ _ _) ?_
    | with_reducible refine Touches.step ?_ (withOrder_frame _ _ _) ?_
    | with_reducible refine Touches.step ?_ (State.withOrd_frame _ _) ?_
    | split
    | dsimp only

theorem addUnits_frame (slot : Nat) (cls : UnitClass) (items : List Item) (s : State) :
    Touches [.ord, .ims] s (addUnits slot cls items s) := by
  unfold addUnits
  repeat' first
    | decide
    | with_reducible exact Touches.refl _ _
    | with_reducible refine Touches.stepFoldl ?_ _ (fun _ _ => ?_)
    | with_reducible refine Touches.stepFoldlPair ?_ _ (fun _ _ => ?_)
    | with_reducible refine Touches.step ?_ (addUnit_frame _ _ _ _ _ _) ?_

theorem setPlane_frame (slot k : Nat) (p : Plane) (s : State) : Touches [.ims] s (setPlane slot k p s) := by
  unfold setPlane
  repeat' first
    | decide
    | with_reducible exact Touches.refl _ _
    | with_reducible refine Touches.step ?_ (withImage_frame _ _ _) ?_

theorem countCorrected_frame (s : State) : Touches [.ims] s (countCorrected s) := by
  unfold countCorrected
  repeat' first
    | decide
    | with_reducible exact Touches.refl _ _
    | with_reducible refine Touches.step ?_ (State.withIms_frame _ _) ?_

theorem losePage_frame (slot k n : Nat) (s : State) : Touches [.lnk, .ims, .alm] s (losePage slot k n s) := by
  unfold losePage
  repeat' first
    | decide
    | with_reducible exact Touches.refl _ _
    | with_reducible refine Touches.step ?_ (setPlane_frame _ _ _ _) ?_
    | with_reducible refine Touches.step ?_ (onset_frame _ _ _) ?_
    | with_reducible refine Touches.step ?_ (State.withIms_frame _ _) ?_

theorem removeImage_frame (slot : Nat) (s : State) : Touches [.lnk, .ims] s (removeImage slot s) := by
  unfold removeImage
  repeat' first
    | decide
    | with_reducible exact Touches.refl _ _
    | with_reducible refine Touches.step ?_ (withImage_frame _ _ _) ?_
    | with_reducible refine Touches.step ?_ (note_frame _ _) ?_

theorem completeScan_frame (c : Scan) (s : State) : Touches [.lnk, .ord, .ims] s (completeScan c s) := by
  unfold completeScan
  repeat' first
    | decide
    | with_reducible exact Touches.refl _ _
    | with_reducible refine Touches.step ?_ (imageDamagedReport_frame _ _) ?_
    | with_reducible refine Touches.step ?_ (imageReadyReport_frame _ _) ?_
    | with_reducible refine Touches.step ?_ (withImage_frame _ _ _) ?_
    | with_reducible refine Touches.step ?_ (note_frame _ _) ?_
    | with_reducible refine Touches.step ?_ (State.withIms_frame _ _) ?_
    | split
    | dsimp only

theorem runScan_frame (fuel : Nat) (s : State) : Touches [.lnk, .ord, .ims] s (runScan fuel s) := by
  induction fuel generalizing s with
  | zero => exact Touches.refl _ _
  | succ k ih =>
    unfold runScan
    repeat' first
      | exact Touches.refl _ _
      | refine Touches.step ?_ (ih _) (by decide)
      | refine Touches.step ?_ (completeScan_frame _ _) (by decide)
      | refine Touches.step ?_ (State.withIms_frame _ _) (by decide)
      | split

theorem advanceScan_frame (s : State) : Touches [.lnk, .ord, .ims] s (advanceScan s) := by
  unfold advanceScan
  repeat' first
    | decide
    | with_reducible exact Touches.refl _ _
    | with_reducible refine Touches.step ?_ (runScan_frame _ _) ?_

theorem scanRead_frame (r : ReadResult) (s : State) : Touches [.lnk, .ord, .ims, .alm] s (scanRead r s) := by
  unfold scanRead
  repeat' first
    | decide
    | with_reducible exact Touches.refl _ _
    | with_reducible refine Touches.step ?_ (advanceScan_frame _) ?_
    | with_reducible refine Touches.step ?_ (losePage_frame _ _ _ _) ?_
    | with_reducible refine Touches.step ?_ (countCorrected_frame _) ?_
    | with_reducible refine Touches.step ?_ (State.withIms_frame _ _) ?_
    | split

theorem dropScan_frame (slot : Nat) (s : State) : Touches [.ims] s (dropScan slot s) := by
  unfold dropScan
  repeat' first
    | decide
    | with_reducible exact Touches.refl _ _
    | with_reducible refine Touches.step ?_ (State.withIms_frame _ _) ?_

theorem writeBelt_frame (r : Rider) (s : State) : Touches [.car] s (writeBelt r s) := by
  unfold writeBelt
  repeat' first
    | decide
    | with_reducible exact Touches.refl _ _
    | with_reducible refine Touches.step ?_ (withGarment_frame _ _ _) ?_

theorem placeOnBelt_frame (serial : Nat) (s : State) : Touches [.car, .ctc] s (placeOnBelt serial s) := by
  unfold placeOnBelt
  repeat' first
    | decide
    | with_reducible exact Touches.refl _ _
    | with_reducible refine Touches.step ?_ (writeBelt_frame _ _) ?_
    | with_reducible refine Touches.step ?_ (setStage_frame _ _ _) ?_
    | with_reducible refine Touches.step ?_ (State.withCtc_frame _ _) ?_

theorem recomputeSpeed_frame (s : State) : Touches [.ctc] s (recomputeSpeed s) := by
  unfold recomputeSpeed
  repeat' first
    | decide
    | with_reducible exact Touches.refl _ _
    | with_reducible refine Touches.step ?_ (State.withCtc_frame _ _) ?_

theorem syncBelt_frame (s : State) : Touches [.ctc] s (syncBelt s) := by
  unfold syncBelt
  repeat' first
    | decide
    | with_reducible exact Touches.refl _ _
    | with_reducible refine Touches.step ?_ (State.withCtc_frame _ _) ?_

theorem warnRange_frame (serial : Nat) (range : Bool) (s : State) :
    Touches [.lnk, .car] s (warnRange serial range s) := by
  unfold warnRange
  repeat' first
    | decide
    | with_reducible exact Touches.refl _ _
    | with_reducible refine Touches.step ?_ (addWarning_frame _ _ _) ?_
    | with_reducible refine Touches.step ?_ (note_frame _ _) ?_
    | split

theorem withZone_frame (z : Nat) (f : Zone → Zone) (s : State) : Touches [.ctc] s (withZone z f s) := by
  unfold withZone
  repeat' first
    | decide
    | with_reducible exact Touches.refl _ _
    | with_reducible refine Touches.step ?_ (State.withCtc_frame _ _) ?_

theorem superviseTrip_frame (z : Nat) (s : State) : Touches [.lnk, .ctc, .alm] s (superviseTrip z s) := by
  unfold superviseTrip
  repeat' first
    | decide
    | with_reducible exact Touches.refl _ _
    | with_reducible refine Touches.step ?_ (withZone_frame _ _ _) ?_
    | with_reducible refine Touches.step ?_ (reportCondition_frame _ _ _) ?_
    | split
    | dsimp only

theorem superviseLow_frame (z : Nat) (s : State) : Touches [.lnk, .ctc, .alm] s (superviseLow z s) := by
  unfold superviseLow
  repeat' first
    | decide
    | with_reducible exact Touches.refl _ _
    | with_reducible refine Touches.step ?_ (withZone_frame _ _ _) ?_
    | with_reducible refine Touches.step ?_ (reportCondition_frame _ _ _) ?_
    | split
    | dsimp only

theorem readZone_frame (z : Nat) (r : Reading) (s : State) : Touches [.lnk, .ctc, .alm] s (readZone z r s) := by
  unfold readZone
  repeat' first
    | decide
    | with_reducible exact Touches.refl _ _
    | with_reducible refine Touches.step ?_ (withZone_frame _ _ _) ?_
    | with_reducible refine Touches.step ?_ (reportCondition_frame _ _ _) ?_

theorem superviseZone_frame (z : Nat) (r : Reading) (s : State) :
    Touches [.lnk, .ctc, .alm] s (superviseZone z r s) := by
  unfold superviseZone
  repeat' first
    | decide
    | with_reducible exact Touches.refl _ _
    | with_reducible refine Touches.step ?_ (readZone_frame _ _ _) ?_
    | with_reducible refine Touches.step ?_ (superviseLow_frame _ _) ?_
    | with_reducible refine Touches.step ?_ (superviseTrip_frame _ _) ?_

theorem driveZone_frame (before : State) (z : Nat) (s : State) : Touches [.ctc] s (driveZone before z s) := by
  unfold driveZone
  repeat' first
    | decide
    | with_reducible exact Touches.refl _ _
    | with_reducible refine Touches.step ?_ (withZone_frame _ _ _) ?_

theorem accrue_frame (s : State) : Touches [.car] s (accrue s) := by
  unfold accrue
  repeat' first
    | decide
    | with_reducible exact Touches.refl _ _
    | with_reducible refine Touches.stepFoldl ?_ _ (fun _ _ => ?_)
    | with_reducible refine Touches.stepFoldlPair ?_ _ (fun _ _ => ?_)
    | with_reducible refine Touches.step ?_ (withGarment_frame _ _ _) ?_
    | split

theorem countSample_frame (s : State) : Touches [.ctc] s (countSample s) := by
  unfold countSample
  repeat' first
    | decide
    | with_reducible exact Touches.refl _ _
    | with_reducible refine Touches.step ?_ (recomputeSpeed_frame _) ?_
    | with_reducible refine Touches.step ?_ (State.withCtc_frame _ _) ?_
    | split

theorem fluidTest_frame (s : State) : Touches [.lnk, .car, .ptr, .alm] s (fluidTest s) := by
  unfold fluidTest
  repeat' first
    | decide
    | with_reducible exact Touches.refl _ _
    | with_reducible refine Touches.step ?_ (reportCondition_frame _ _ _) ?_
    | with_reducible refine Touches.step ?_ (setHold_frame _ _ _) ?_
    | with_reducible refine Touches.step ?_ (State.withPtr_frame _ _) ?_
    | split

theorem retestFluid_frame (s : State) : Touches [.lnk, .car, .ptr, .alm] s (retestFluid s) := by
  unfold retestFluid
  repeat' first
    | decide
    | with_reducible exact Touches.refl _ _
    | with_reducible refine Touches.step ?_ (fluidTest_frame _) ?_
    | split

theorem finishPretreat_frame (serial : Nat) (s : State) :
    Touches [.lnk, .car, .ptr] s (finishPretreat serial s) := by
  unfold finishPretreat
  repeat' first
    | decide
    | with_reducible exact Touches.refl _ _
    | with_reducible refine Touches.step ?_ (setStage_frame _ _ _) ?_
    | with_reducible refine Touches.step ?_ (release_frame _ _) ?_
    | with_reducible refine Touches.step ?_ (State.withPtr_frame _ _) ?_

theorem pretreatArrival_frame (serial : Nat) (s : State) :
    Touches [.lnk, .car, .ptr, .alm] s (pretreatArrival serial s) := by
  unfold pretreatArrival
  repeat' first
    | decide
    | with_reducible exact Touches.refl _ _
    | with_reducible refine Touches.step ?_ (finishPretreat_frame _ _) ?_
    | with_reducible refine Touches.step ?_ (fluidTest_frame _) ?_
    | with_reducible refine Touches.step ?_ (withGarment_frame _ _ _) ?_
    | with_reducible refine Touches.step ?_ (State.withPtr_frame _ _) ?_
    | split
    | dsimp only

theorem startTraverse_frame (s : State) : Touches [.ptr] s (startTraverse s) := by
  unfold startTraverse
  repeat' first
    | decide
    | with_reducible exact Touches.refl _ _
    | with_reducible refine Touches.step ?_ (State.withPtr_frame _ _) ?_
    | split

theorem openValve_frame (lane : Nat) (s : State) : Touches [.ptr] s (openValve lane s) := by
  unfold openValve
  repeat' first
    | decide
    | with_reducible exact Touches.refl _ _
    | with_reducible refine Touches.step ?_ (State.withPtr_frame _ _) ?_
    | split

theorem closeValve_frame (lane : Nat) (s : State) : Touches [.ptr] s (closeValve lane s) := by
  unfold closeValve
  repeat' first
    | decide
    | with_reducible exact Touches.refl _ _
    | with_reducible refine Touches.step ?_ (State.withPtr_frame _ _) ?_
    | split

theorem spend_frame (serial ug : Nat) (s : State) : Touches [.car, .ptr] s (spend serial ug s) := by
  unfold spend
  repeat' first
    | decide
    | with_reducible exact Touches.refl _ _
    | with_reducible refine Touches.step ?_ (withGarment_frame _ _ _) ?_
    | with_reducible refine Touches.step ?_ (State.withPtr_frame _ _) ?_

theorem endTraverse_frame (s : State) : Touches [.lnk, .car, .ptr] s (endTraverse s) := by
  unfold endTraverse
  repeat' first
    | decide
    | with_reducible exact Touches.refl _ _
    | with_reducible refine Touches.step ?_ (spend_frame _ _ _) ?_
    | with_reducible refine Touches.step ?_ (finishPretreat_frame _ _) ?_
    | with_reducible refine Touches.step ?_ (State.withPtr_frame _ _) ?_
    | split

theorem endRow_frame (s : State) : Touches [.lnk, .car, .ptr] s (endRow s) := by
  unfold endRow
  repeat' first
    | decide
    | with_reducible exact Touches.refl _ _
    | with_reducible refine Touches.step ?_ (endTraverse_frame _) ?_
    | with_reducible refine Touches.step ?_ (State.withPtr_frame _ _) ?_
    | split

theorem parkBar_frame (s : State) : Touches [.lnk, .car, .ptr, .alm] s (parkBar s) := by
  unfold parkBar
  repeat' first
    | decide
    | with_reducible exact Touches.refl _ _
    | with_reducible refine Touches.step ?_ (retestFluid_frame _) ?_
    | with_reducible refine Touches.step ?_ (State.withPtr_frame _ _) ?_
    | split

theorem stopBar_frame (s : State) : Touches [.ptr] s (stopBar s) := by
  unfold stopBar
  repeat' first
    | decide
    | with_reducible exact Touches.refl _ _
    | with_reducible refine Touches.step ?_ (State.withPtr_frame _ _) ?_
    | split

theorem haltPretreat_frame (s : State) : Touches [.car, .ptr] s (haltPretreat s) := by
  unfold haltPretreat
  repeat' first
    | decide
    | with_reducible exact Touches.refl _ _
    | with_reducible refine Touches.step ?_ (stopBar_frame _) ?_
    | with_reducible refine Touches.step ?_ (spend_frame _ _ _) ?_
    | with_reducible refine Touches.step ?_ (addDefect_frame _ _ _) ?_
    | with_reducible refine Touches.step ?_ (State.withPtr_frame _ _) ?_
    | split

theorem resumePretreat_frame (s : State) : Touches [.lnk, .car, .ptr, .alm] s (resumePretreat s) := by
  unfold resumePretreat
  repeat' first
    | decide
    | with_reducible exact Touches.refl _ _
    | with_reducible refine Touches.step ?_ (finishPretreat_frame _ _) ?_
    | with_reducible refine Touches.step ?_ (retestFluid_frame _) ?_
    | with_reducible refine Touches.step ?_ (State.withPtr_frame _ _) ?_
    | split
    | dsimp only

theorem closePress_frame (s : State) : Touches [.lnk, .car, .ptr] s (closePress s) := by
  unfold closePress
  repeat' first
    | decide
    | with_reducible exact Touches.refl _ _
    | with_reducible refine Touches.step ?_ (setHold_frame _ _ _) ?_
    | with_reducible refine Touches.step ?_ (State.withPtr_frame _ _) ?_

theorem finishFlash_frame (serial : Nat) (s : State) : Touches [.lnk, .car, .ptr] s (finishFlash serial s) := by
  unfold finishFlash
  repeat' first
    | decide
    | with_reducible exact Touches.refl _ _
    | with_reducible refine Touches.step ?_ (setStage_frame _ _ _) ?_
    | with_reducible refine Touches.step ?_ (release_frame _ _) ?_
    | with_reducible refine Touches.step ?_ (State.withPtr_frame _ _) ?_

theorem setDwell_frame (serial seconds : Nat) (s : State) : Touches [.car] s (setDwell serial seconds s) := by
  unfold setDwell
  repeat' first
    | decide
    | with_reducible exact Touches.refl _ _
    | with_reducible refine Touches.step ?_ (withGarment_frame _ _ _) ?_

theorem beginHot_frame (s : State) : Touches [.lnk, .car, .ptr] s (beginHot s) := by
  unfold beginHot
  repeat' first
    | decide
    | with_reducible exact Touches.refl _ _
    | with_reducible refine Touches.step ?_ (setHold_frame _ _ _) ?_
    | with_reducible refine Touches.step ?_ (State.withPtr_frame _ _) ?_

theorem beginCold_frame (s : State) : Touches [.lnk, .car, .ptr] s (beginCold s) := by
  unfold beginCold
  repeat' first
    | decide
    | with_reducible exact Touches.refl _ _
    | with_reducible refine Touches.step ?_ (setHold_frame _ _ _) ?_
    | with_reducible refine Touches.step ?_ (State.withPtr_frame _ _) ?_

theorem decideFlash_frame (s : State) : Touches [.lnk, .car, .ptr, .alm] s (decideFlash s) := by
  unfold decideFlash
  repeat' first
    | decide
    | with_reducible exact Touches.refl _ _
    | with_reducible refine Touches.step ?_ (beginCold_frame _) ?_
    | with_reducible refine Touches.step ?_ (beginHot_frame _) ?_
    | with_reducible refine Touches.step ?_ (closePress_frame _) ?_
    | with_reducible refine Touches.step ?_ (reportCondition_frame _ _ _) ?_
    | split
    | dsimp only

theorem flashArrival_frame (serial : Nat) (s : State) :
    Touches [.lnk, .car, .ptr, .alm] s (flashArrival serial s) := by
  unfold flashArrival
  repeat' first
    | decide
    | with_reducible exact Touches.refl _ _
    | with_reducible refine Touches.step ?_ (decideFlash_frame _) ?_
    | with_reducible refine Touches.step ?_ (setDwell_frame _ _ _) ?_
    | with_reducible refine Touches.step ?_ (finishFlash_frame _ _) ?_
    | split

theorem endHotWait_frame (s : State) : Touches [.lnk, .car, .ptr, .alm] s (endHotWait s) := by
  unfold endHotWait
  repeat' first
    | decide
    | with_reducible exact Touches.refl _ _
    | with_reducible refine Touches.step ?_ (State.withPtr_frame _ _) ?_
    | with_reducible refine Touches.step ?_ (decideFlash_frame _) ?_
    | split

theorem flashWaitSample_frame (s : State) : Touches [.lnk, .car, .ptr, .alm] s (flashWaitSample s) := by
  unfold flashWaitSample
  repeat' first
    | decide
    | with_reducible exact Touches.refl _ _
    | with_reducible refine Touches.step ?_ (endHotWait_frame _) ?_
    | with_reducible refine Touches.step ?_ (decideFlash_frame _) ?_
    | split

theorem sampleFlash_frame (r : Reading) (s : State) : Touches [.lnk, .car, .ptr, .alm] s (sampleFlash r s) := by
  unfold sampleFlash
  repeat' first
    | decide
    | with_reducible exact Touches.refl _ _
    | with_reducible refine Touches.step ?_ (flashWaitSample_frame _) ?_
    | with_reducible refine Touches.step ?_ (reportCondition_frame _ _ _) ?_
    | with_reducible refine Touches.step ?_ (State.withPtr_frame _ _) ?_

theorem expireFlashWait_frame (s : State) : Touches [.lnk, .car, .ptr, .alm] s (expireFlashWait s) := by
  unfold expireFlashWait
  repeat' first
    | decide
    | with_reducible exact Touches.refl _ _
    | with_reducible refine Touches.step ?_ (closePress_frame _) ?_
    | with_reducible refine Touches.step ?_ (onset_frame _ _ _) ?_
    | with_reducible refine Touches.step ?_ (addWarning_frame _ _ _) ?_
    | split

theorem expireDwell_frame (s : State) : Touches [.lnk, .car, .ptr] s (expireDwell s) := by
  unfold expireDwell
  repeat' first
    | decide
    | with_reducible exact Touches.refl _ _
    | with_reducible refine Touches.step ?_ (setDwell_frame _ _ _) ?_
    | with_reducible refine Touches.step ?_ (finishFlash_frame _ _) ?_
    | with_reducible refine Touches.step ?_ (State.withPtr_frame _ _) ?_
    | split

theorem haltFlash_frame (s : State) : Touches [.lnk, .car, .ptr] s (haltFlash s) := by
  unfold haltFlash
  repeat' first
    | decide
    | with_reducible exact Touches.refl _ _
    | with_reducible refine Touches.step ?_ (setDwell_frame _ _ _) ?_
    | with_reducible refine Touches.step ?_ (addWarning_frame _ _ _) ?_
    | with_reducible refine Touches.step ?_ (setHold_frame _ _ _) ?_
    | with_reducible refine Touches.step ?_ (State.withPtr_frame _ _) ?_
    | split
    | dsimp only

theorem resumeFlash_frame (s : State) : Touches [.lnk, .car, .ptr, .alm] s (resumeFlash s) := by
  unfold resumeFlash
  repeat' first
    | decide
    | with_reducible exact Touches.refl _ _
    | with_reducible refine Touches.step ?_ (decideFlash_frame _) ?_
    | with_reducible refine Touches.step ?_ (finishFlash_frame _ _) ?_
    | split

theorem takeTarget_frame (s : State) : Touches [.ptr] s (takeTarget s) := by
  unfold takeTarget
  repeat' first
    | decide
    | with_reducible exact Touches.refl _ _
    | with_reducible refine Touches.step ?_ (State.withPtr_frame _ _) ?_
    | split
    | dsimp only

theorem setPrintActive_frame (serial : Nat) (on : Bool) (s : State) :
    Touches [.ims] s (setPrintActive serial on s) := by
  unfold setPrintActive
  repeat' first
    | decide
    | with_reducible exact Touches.refl _ _
    | with_reducible refine Touches.step ?_ (withImageId_frame _ _ _) ?_
    | split

theorem startSpit_frame (serial : Nat) (s : State) : Touches [.ims, .fdp] s (startSpit serial s) := by
  unfold startSpit
  repeat' first
    | decide
    | with_reducible exact Touches.refl _ _
    | with_reducible refine Touches.step ?_ (setPrintActive_frame _ _ _) ?_
    | with_reducible refine Touches.step ?_ (State.withFdp_frame _ _) ?_

theorem startStrokeState_frame (stroke serial : Nat) (s : State) :
    Touches [.fdp] s (startStrokeState stroke serial s) := by
  unfold startStrokeState
  repeat' first
    | decide
    | with_reducible exact Touches.refl _ _
    | with_reducible refine Touches.step ?_ (State.withFdp_frame _ _) ?_

theorem dropStrokeState_frame (s : State) : Touches [.fdp] s (dropStrokeState s) := by
  unfold dropStrokeState
  repeat' first
    | decide
    | with_reducible exact Touches.refl _ _
    | with_reducible refine Touches.step ?_ (State.withFdp_frame _ _) ?_

theorem clearHead_frame (s : State) : Touches [.fdp] s (clearHead s) := by
  unfold clearHead
  repeat' first
    | decide
    | with_reducible exact Touches.refl _ _
    | with_reducible refine Touches.step ?_ (State.withFdp_frame _ _) ?_

theorem withStroke_frame (f : Stroke → Stroke) (s : State) : Touches [.fdp] s (withStroke f s) := by
  unfold withStroke
  repeat' first
    | decide
    | with_reducible exact Touches.refl _ _
    | with_reducible refine Touches.step ?_ (State.withFdp_frame _ _) ?_

theorem losePlane_frame (serial ch b : Nat) (s : State) : Touches [.car, .fdp] s (losePlane serial ch b s) := by
  unfold losePlane
  repeat' first
    | decide
    | with_reducible exact Touches.refl _ _
    | with_reducible refine Touches.step ?_ (withStroke_frame _ _) ?_
    | with_reducible refine Touches.step ?_ (addDefect_frame _ _ _) ?_

theorem damageImage_frame (slot : Nat) (s : State) : Touches [.lnk, .ord, .ims] s (damageImage slot s) := by
  unfold damageImage
  repeat' first
    | decide
    | with_reducible exact Touches.refl _ _
    | with_reducible refine Touches.step ?_ (imageDamagedReport_frame _ _) ?_
    | with_reducible refine Touches.step ?_ (withImage_frame _ _ _) ?_
    | with_reducible refine Touches.step ?_ (note_frame _ _) ?_
    | split

theorem readPlane_frame (serial slot : Nat) (i : Image) (ch b : Nat) (p : State × List ReadResult) :
    Touches [.lnk, .ord, .ims, .car, .fdp, .alm] p.1 (readPlane serial slot i ch b p).1 := by
  unfold readPlane
  repeat' first
    | decide
    | with_reducible exact Touches.refl _ _
    | with_reducible refine Touches.step ?_ (damageImage_frame _ _) ?_
    | with_reducible refine Touches.step ?_ (losePlane_frame _ _ _ _) ?_
    | with_reducible refine Touches.step ?_ (withStroke_frame _ _) ?_
    | with_reducible refine Touches.step ?_ (losePage_frame _ _ _ _) ?_
    | with_reducible refine Touches.step ?_ (countCorrected_frame _) ?_
    | split
    | dsimp only

theorem readBands_frame (serial stroke n : Nat) (p : State × List ReadResult) :
    Touches [.lnk, .ord, .ims, .car, .fdp, .alm] p.1 (readBands serial stroke n p).1 := by
  unfold readBands
  repeat' first
    | decide
    | with_reducible exact Touches.refl _ _
    | with_reducible refine Touches.stepFoldl ?_ _ (fun _ _ => ?_)
    | with_reducible refine Touches.stepFoldlPair ?_ _ (fun _ _ => ?_)
    | with_reducible refine Touches.step ?_ (readPlane_frame _ _ _ _ _ _) ?_
    | split

theorem composeLine_frame (serial stroke n : Nat) (s : State) :
    Touches [.fdp] s (composeLine serial stroke n s) := by
  unfold composeLine
  repeat' first
    | decide
    | with_reducible exact Touches.refl _ _
    | with_reducible refine Touches.step ?_ (State.withFdp_frame _ _) ?_
    | split

theorem restLine_frame (s : State) : Touches [.fdp] s (restLine s) := by
  unfold restLine
  repeat' first
    | decide
    | with_reducible exact Touches.refl _ _
    | with_reducible refine Touches.step ?_ (withStroke_frame _ _) ?_
    | with_reducible refine Touches.step ?_ (State.withFdp_frame _ _) ?_

theorem decideDefects_frame (serial : Nat) (s : State) : Touches [.car] s (decideDefects serial s) := by
  unfold decideDefects
  repeat' first
    | decide
    | with_reducible exact Touches.refl _ _
    | with_reducible refine Touches.step ?_ (addDefect_frame _ _ _) ?_
    | split

theorem moveShuttle_frame (motion : Shuttle) (s : State) : Touches [.shf] s (moveShuttle motion s) := by
  unfold moveShuttle
  repeat' first
    | decide
    | with_reducible exact Touches.refl _ _
    | with_reducible refine Touches.step ?_ (State.withShf_frame _ _) ?_

theorem startHoming_frame (s : State) : Touches [.shf] s (startHoming s) := by
  unfold startHoming
  repeat' first
    | decide
    | with_reducible exact Touches.refl _ _
    | with_reducible refine Touches.step ?_ (moveShuttle_frame _ _) ?_
    | with_reducible refine Touches.step ?_ (State.withShf_frame _ _) ?_

theorem stopShuttle_frame (s : State) : Touches [.shf] s (stopShuttle s) := by
  unfold stopShuttle
  repeat' first
    | decide
    | with_reducible exact Touches.refl _ _
    | with_reducible refine Touches.step ?_ (State.withShf_frame _ _) ?_

theorem finishPrint_frame (serial : Nat) (s : State) :
    Touches [.lnk, .ims, .car, .shf] s (finishPrint serial s) := by
  unfold finishPrint
  repeat' first
    | decide
    | with_reducible exact Touches.refl _ _
    | with_reducible refine Touches.step ?_ (returnImageRef_frame _ _) ?_
    | with_reducible refine Touches.step ?_ (setStage_frame _ _ _) ?_
    | with_reducible refine Touches.step ?_ (release_frame _ _) ?_
    | with_reducible refine Touches.step ?_ (State.withShf_frame _ _) ?_

theorem printArrival_frame (serial : Nat) (s : State) :
    Touches [.lnk, .ims, .car, .shf] s (printArrival serial s) := by
  unfold printArrival
  repeat' first
    | decide
    | with_reducible exact Touches.refl _ _
    | with_reducible refine Touches.step ?_ (finishPrint_frame _ _) ?_
    | with_reducible refine Touches.step ?_ (State.withShf_frame _ _) ?_
    | split
    | dsimp only

theorem startStroke_frame (s : State) : Touches [.shf, .fdp] s (startStroke s) := by
  unfold startStroke
  repeat' first
    | decide
    | with_reducible exact Touches.refl _ _
    | with_reducible refine Touches.step ?_ (moveShuttle_frame _ _) ?_
    | with_reducible refine Touches.step ?_ (startStrokeState_frame _ _ _) ?_
    | with_reducible refine Touches.step ?_ (State.withShf_frame _ _) ?_
    | split

theorem completeSpit_frame (s : State) : Touches [.shf, .fdp] s (completeSpit s) := by
  unfold completeSpit
  repeat' first
    | decide
    | with_reducible exact Touches.refl _ _
    | with_reducible refine Touches.step ?_ (clearHead_frame _) ?_
    | with_reducible refine Touches.step ?_ (startStroke_frame _) ?_
    | with_reducible refine Touches.step ?_ (State.withFdp_frame _ _) ?_
    | split

theorem startPrint_frame (s : State) : Touches [.ims, .shf, .fdp] s (startPrint s) := by
  unfold startPrint
  repeat' first
    | decide
    | with_reducible exact Touches.refl _ _
    | with_reducible refine Touches.step ?_ (completeSpit_frame _) ?_
    | with_reducible refine Touches.step ?_ (startSpit_frame _ _) ?_
    | with_reducible refine Touches.step ?_ (State.withShf_frame _ _) ?_
    | split
    | dsimp only

theorem writeRecord_frame (serial : Nat) (aborted : Bool) (s : State) :
    Touches [.car] s (writeRecord serial aborted s) := by
  unfold writeRecord
  repeat' first
    | decide
    | with_reducible exact Touches.refl _ _
    | with_reducible refine Touches.step ?_ (withGarment_frame _ _ _) ?_
    | split

theorem endStroke_frame (s : State) : Touches [.ims, .car, .shf, .fdp] s (endStroke s) := by
  unfold endStroke
  repeat' first
    | decide
    | with_reducible exact Touches.refl _ _
    | with_reducible refine Touches.step ?_ (writeRecord_frame _ _ _) ?_
    | with_reducible refine Touches.step ?_ (moveShuttle_frame _ _) ?_
    | with_reducible refine Touches.step ?_ (decideDefects_frame _ _) ?_
    | with_reducible refine Touches.step ?_ (dropStrokeState_frame _) ?_
    | with_reducible refine Touches.step ?_ (setPrintActive_frame _ _ _) ?_
    | with_reducible refine Touches.step ?_ (State.withShf_frame _ _) ?_
    | split
    | dsimp only

theorem abortPrint_frame (s : State) : Touches [.ims, .car, .shf, .fdp] s (abortPrint s) := by
  unfold abortPrint
  repeat' first
    | decide
    | with_reducible exact Touches.refl _ _
    | with_reducible refine Touches.step ?_ (clearHead_frame _) ?_
    | with_reducible refine Touches.step ?_ (writeRecord_frame _ _ _) ?_
    | with_reducible refine Touches.step ?_ (dropStrokeState_frame _) ?_
    | with_reducible refine Touches.step ?_ (setPrintActive_frame _ _ _) ?_
    | with_reducible refine Touches.step ?_ (addDefect_frame _ _ _) ?_
    | with_reducible refine Touches.step ?_ (State.withShf_frame _ _) ?_
    | split

theorem lineEvent_frame (n : Nat) (p : State × List ReadResult) :
    Touches [.lnk, .ord, .ims, .car, .shf, .fdp, .alm] p.1 (lineEvent n p).1 := by
  unfold lineEvent
  repeat' first
    | decide
    | with_reducible exact Touches.refl _ _
    | with_reducible refine Touches.step ?_ (restLine_frame _) ?_
    | with_reducible refine Touches.step ?_ (composeLine_frame _ _ _ _) ?_
    | with_reducible refine Touches.step ?_ (readBands_frame _ _ _ _) ?_
    | with_reducible refine Touches.step ?_ (State.withShf_frame _ _) ?_
    | split
    | dsimp only

theorem advanceStroke_frame (reads : List ReadResult) (s : State) :
    Touches [.lnk, .ord, .ims, .car, .shf, .fdp, .alm] s (advanceStroke reads s) := by
  unfold advanceStroke
  repeat' first
    | decide
    | with_reducible exact Touches.refl _ _
    | with_reducible refine Touches.step ?_ (clearHead_frame _) ?_
    | with_reducible refine Touches.stepFoldl ?_ _ (fun _ _ => ?_)
    | with_reducible refine Touches.stepFoldlPair ?_ _ (fun _ _ => ?_)
    | with_reducible refine Touches.step ?_ (lineEvent_frame _ _) ?_
    | with_reducible refine Touches.step ?_ (endStroke_frame _) ?_
    | with_reducible refine Touches.step ?_ (State.withShf_frame _ _) ?_
    | split
    | dsimp only

theorem encoderCount_frame (forward : Bool) (reads : List ReadResult) (s : State) :
    Touches [.lnk, .ord, .ims, .car, .shf, .fdp, .alm] s (encoderCount forward reads s) := by
  unfold encoderCount
  repeat' first
    | decide
    | with_reducible exact Touches.refl _ _
    | with_reducible refine Touches.step ?_ (advanceStroke_frame _ _) ?_
    | with_reducible refine Touches.step ?_ (State.withShf_frame _ _) ?_
    | split
    | dsimp only

theorem scaleMarkReport_frame (reads : List ReadResult) (s : State) :
    Touches [.lnk, .ord, .ims, .car, .shf, .fdp, .alm] s (scaleMarkReport reads s) := by
  unfold scaleMarkReport
  repeat' first
    | decide
    | with_reducible exact Touches.refl _ _
    | with_reducible refine Touches.step ?_ (advanceStroke_frame _ _) ?_
    | with_reducible refine Touches.step ?_ (State.withShf_frame _ _) ?_
    | split

theorem arriveHome_frame (s : State) : Touches [.lnk, .ims, .car, .shf, .fdp] s (arriveHome s) := by
  unfold arriveHome
  repeat' first
    | decide
    | with_reducible exact Touches.refl _ _
    | with_reducible refine Touches.step ?_ (startStroke_frame _) ?_
    | with_reducible refine Touches.step ?_ (finishPrint_frame _ _) ?_
    | with_reducible refine Touches.step ?_ (State.withShf_frame _ _) ?_
    | split
    | dsimp only

theorem homeReport_frame (s : State) : Touches [.lnk, .ims, .car, .shf, .fdp] s (homeReport s) := by
  unfold homeReport
  repeat' first
    | decide
    | with_reducible exact Touches.refl _ _
    | with_reducible refine Touches.step ?_ (arriveHome_frame _) ?_
    | with_reducible refine Touches.step ?_ (State.withShf_frame _ _) ?_
    | split
    | dsimp only

theorem loseSignal_frame (s : State) : Touches [.lnk, .ims, .car, .shf, .fdp, .alm] s (loseSignal s) := by
  unfold loseSignal
  repeat' first
    | decide
    | with_reducible exact Touches.refl _ _
    | with_reducible refine Touches.step ?_ (abortPrint_frame _) ?_
    | with_reducible refine Touches.step ?_ (stopShuttle_frame _) ?_
    | with_reducible refine Touches.step ?_ (onset_frame _ _ _) ?_
    | with_reducible refine Touches.step ?_ (setHold_frame _ _ _) ?_
    | with_reducible refine Touches.step ?_ (State.withShf_frame _ _) ?_
    | split
    | dsimp only

theorem homeHeld_frame (s : State) : Touches [.lnk, .car, .shf] s (homeHeld s) := by
  unfold homeHeld
  repeat' first
    | decide
    | with_reducible exact Touches.refl _ _
    | with_reducible refine Touches.step ?_ (startHoming_frame _) ?_
    | with_reducible refine Touches.step ?_ (setHold_frame _ _ _) ?_

theorem encoderIdle_frame (s : State) : Touches [.lnk, .car, .shf] s (encoderIdle s) := by
  unfold encoderIdle
  repeat' first
    | decide
    | with_reducible exact Touches.refl _ _
    | with_reducible refine Touches.step ?_ (homeHeld_frame _) ?_
    | with_reducible refine Touches.step ?_ (startHoming_frame _) ?_
    | split

theorem haltPrint_frame (s : State) : Touches [.ims, .car, .shf, .fdp] s (haltPrint s) := by
  unfold haltPrint
  repeat' first
    | decide
    | with_reducible exact Touches.refl _ _
    | with_reducible refine Touches.step ?_ (abortPrint_frame _) ?_
    | with_reducible refine Touches.step ?_ (stopShuttle_frame _) ?_
    | with_reducible refine Touches.step ?_ (State.withShf_frame _ _) ?_
    | split
    | dsimp only

theorem resumePrint_frame (s : State) : Touches [.lnk, .ims, .car, .shf] s (resumePrint s) := by
  unfold resumePrint
  repeat' first
    | decide
    | with_reducible exact Touches.refl _ _
    | with_reducible refine Touches.step ?_ (encoderIdle_frame _) ?_
    | with_reducible refine Touches.step ?_ (finishPrint_frame _ _) ?_
    | with_reducible refine Touches.step ?_ (startHoming_frame _) ?_
    | with_reducible refine Touches.step ?_ (moveShuttle_frame _ _) ?_
    | split

theorem resetShuttle_frame (s : State) : Touches [.shf] s (resetShuttle s) := by
  unfold resetShuttle
  repeat' first
    | decide
    | with_reducible exact Touches.refl _ _
    | with_reducible refine Touches.step ?_ (startHoming_frame _) ?_
    | with_reducible refine Touches.step ?_ (State.withShf_frame _ _) ?_
    | split
    | dsimp only

theorem setEntryLamp_frame (l : EntryLamp) (s : State) : Touches [.lnk, .exs] s (setEntryLamp l s) := by
  unfold setEntryLamp
  repeat' first
    | decide
    | with_reducible exact Touches.refl _ _
    | with_reducible refine Touches.step ?_ (note_frame _ _) ?_
    | with_reducible refine Touches.step ?_ (State.withExs_frame _ _) ?_
    | split

theorem admitted_frame (serial : Nat) (range : Bool) (s : State) :
    Touches [.lnk, .car, .ctc] s (admitted serial range s) := by
  unfold admitted
  repeat' first
    | decide
    | with_reducible exact Touches.refl _ _
    | with_reducible refine Touches.step ?_ (warnRange_frame _ _ _) ?_
    | with_reducible refine Touches.step ?_ (recomputeSpeed_frame _) ?_

theorem admitUnload_frame (serial : Nat) (range : Bool) (s : State) :
    Touches [.lnk, .car, .ctc] s (admitUnload serial range s) := by
  unfold admitUnload
  repeat' first
    | decide
    | with_reducible exact Touches.refl _ _
    | with_reducible refine Touches.step ?_ (admitted_frame _ _ _) ?_
    | with_reducible refine Touches.step ?_ (setHold_frame _ _ _) ?_
    | with_reducible refine Touches.step ?_ (State.withCtc_frame _ _) ?_
    | with_reducible refine Touches.step ?_ (State.withCar_frame _ _) ?_

theorem testUnload_frame (s : State) : Touches [.lnk, .car, .ctc] s (testUnload s) := by
  unfold testUnload
  repeat' first
    | decide
    | with_reducible exact Touches.refl _ _
    | with_reducible refine Touches.step ?_ (admitUnload_frame _ _ _) ?_
    | with_reducible refine Touches.step ?_ (admitted_frame _ _ _) ?_
    | with_reducible refine Touches.step ?_ (setHold_frame _ _ _) ?_
    | split

theorem admitRefeed_frame (serial : Nat) (range : Bool) (s : State) :
    Touches [.lnk, .car, .ctc, .exs] s (admitRefeed serial range s) := by
  unfold admitRefeed
  exact (((((((Touches.refl _ s).step (State.withCtc_frame _ _) rfl).step (State.withExs_frame _ _) rfl).step
    (withGarment_frame _ _ _) rfl).step (placeOnBelt_frame _ _) rfl).step (setEntryLamp_frame _ _) rfl).step
    (admitted_frame _ _ _) rfl)

theorem testRefeed_frame (s : State) : Touches [.lnk, .car, .ctc, .exs] s (testRefeed s) := by
  unfold testRefeed
  repeat' first
    | decide
    | with_reducible exact Touches.refl _ _
    | with_reducible refine Touches.step ?_ (admitRefeed_frame _ _ _) ?_
    | with_reducible refine Touches.step ?_ (admitted_frame _ _ _) ?_
    | with_reducible refine Touches.step ?_ (State.withExs_frame _ _) ?_
    | split

theorem testClaims_frame (s : State) : Touches [.lnk, .car, .ctc, .exs] s (testClaims s) := by
  unfold testClaims
  repeat' first
    | decide
    | with_reducible exact Touches.refl _ _
    | with_reducible refine Touches.step ?_ (testRefeed_frame _) ?_
    | with_reducible refine Touches.step ?_ (testUnload_frame _) ?_

theorem unloadArrival_frame (serial : Nat) (s : State) :
    Touches [.lnk, .car, .ctc] s (unloadArrival serial s) := by
  unfold unloadArrival
  repeat' first
    | decide
    | with_reducible exact Touches.refl _ _
    | with_reducible refine Touches.step ?_ (testUnload_frame _) ?_
    | with_reducible refine Touches.step ?_ (setStage_frame _ _ _) ?_
    | with_reducible refine Touches.step ?_ (State.withCtc_frame _ _) ?_

theorem completeTransfer_frame (s : State) : Touches [.lnk, .car, .ctc] s (completeTransfer s) := by
  unfold completeTransfer
  split
  · exact (((((Touches.refl _ s).step (setContents_frame _ _ _) rfl).step (placeOnBelt_frame _ _) rfl).step
      (State.withCtc_frame _ _) rfl).step (State.withCar_frame _ _) rfl).step (release_frame _ _) rfl
  · exact Touches.refl _ s

theorem passExit_frame (serial : Nat) (s : State) : Touches [.car, .ctc] s (passExit serial s) := by
  unfold passExit
  repeat' first
    | decide
    | with_reducible exact Touches.refl _ _
    | with_reducible refine Touches.step ?_ (recomputeSpeed_frame _) ?_
    | with_reducible refine Touches.step ?_ (withGarment_frame _ _ _) ?_

theorem removeRider_frame (serial : Nat) (s : State) : Touches [.ctc] s (removeRider serial s) := by
  unfold removeRider
  repeat' first
    | decide
    | with_reducible exact Touches.refl _ _
    | with_reducible refine Touches.step ?_ (State.withCtc_frame _ _) ?_

theorem correctRider_frame (serial : Nat) (s : State) : Touches [.car, .ctc] s (correctRider serial s) := by
  unfold correctRider
  split
  · split
    · exact (((Touches.refl _ s).step (State.withCtc_frame _ _) rfl).step (writeBelt_frame _ _) rfl).step
        (passExit_frame _ _) rfl
    · exact Touches.refl _ s
  · exact Touches.refl _ s

theorem sortRecord_frame (serial : Nat) (f : Garment → Garment) (s : State) :
    Touches [.lnk, .car] s (sortRecord serial f s) := by
  unfold sortRecord
  repeat' first
    | decide
    | with_reducible exact Touches.refl _ _
    | with_reducible refine Touches.step ?_ (withGarment_frame _ _ _) ?_
    | with_reducible refine Touches.step ?_ (note_frame _ _) ?_

theorem reportSort_frame (serial : Nat) (r : Report) (s : State) :
    Touches [.lnk, .ord, .ims, .exs] s (reportSort serial r s) := by
  unfold reportSort
  repeat' first
    | decide
    | with_reducible exact Touches.refl _ _
    | with_reducible refine Touches.step ?_ (sortReport_frame _ _ _) ?_
    | split

theorem sortMissing_frame (serial : Nat) (s : State) :
    Touches [.lnk, .ord, .ims, .car, .ctc, .exs] s (sortMissing serial s) := by
  unfold sortMissing
  repeat' first
    | decide
    | with_reducible exact Touches.refl _ _
    | with_reducible refine Touches.step ?_ (reportSort_frame _ _ _) ?_
    | with_reducible refine Touches.step ?_ (sortRecord_frame _ _ _) ?_
    | with_reducible refine Touches.step ?_ (removeRider_frame _ _) ?_

theorem setDiverter_frame (r : Route) (s : State) : Touches [.exs] s (setDiverter r s) := by
  unfold setDiverter
  repeat' first
    | decide
    | with_reducible exact Touches.refl _ _
    | with_reducible refine Touches.step ?_ (State.withExs_frame _ _) ?_

theorem sortAtDiverter_frame (serial : Nat) (r : Route) (f : Garment → Garment) (s : State) :
    Touches [.lnk, .car, .exs] s (sortAtDiverter serial r f s) := by
  unfold sortAtDiverter
  repeat' first
    | decide
    | with_reducible exact Touches.refl _ _
    | with_reducible refine Touches.step ?_ (setDiverter_frame _ _) ?_
    | with_reducible refine Touches.step ?_ (sortRecord_frame _ _ _) ?_

theorem sortToBin_frame (serial slot : Nat) (o : Order) (s : State) :
    Touches [.lnk, .ord, .ims, .car, .exs, .alm] s (sortToBin serial slot o s) := by
  have h : ∀ (x : Route) (f : Garment → Garment),
      Touches [.lnk, .ord, .ims, .car, .exs, .alm] s (sortAtDiverter serial x f s) := fun x f =>
    (Touches.refl _ s).step (sortAtDiverter_frame serial x f s) rfl
  unfold sortToBin
  split
  · exact ((h _ _).step (setBin_frame _ _ _) rfl).step (reportSort_frame _ _ _) rfl
  · split
    · exact ((((h _ _).step (setBin_frame _ _ _) rfl).step (withOrder_frame _ _ _) rfl).step
        (note_frame _ _) rfl).step (reportSort_frame _ _ _) rfl
    · exact ((((h _ _).step (withOrder_frame _ _ _) rfl).step (note_frame _ _) rfl).step
        (reportSort_frame _ _ _) rfl).step (onset_frame _ _ _) rfl

theorem sendToRecure_frame (serial : Nat) (s : State) : Touches [.car, .exs] s (sendToRecure serial s) := by
  unfold sendToRecure
  repeat' first
    | decide
    | with_reducible exact Touches.refl _ _
    | with_reducible refine Touches.step ?_ (setDiverter_frame _ _) ?_
    | with_reducible refine Touches.step ?_ (withGarment_frame _ _ _) ?_
    | with_reducible refine Touches.step ?_ (State.withExs_frame _ _) ?_

theorem routeGarment_frame (serial slot : Nat) (o : Order) (g : Garment) (s : State) :
    Touches [.lnk, .ord, .ims, .car, .exs, .alm] s (routeGarment serial slot o g s) := by
  have h : ∀ (r : Report) (x : Route) (f : Garment → Garment),
      Touches [.lnk, .ord, .ims, .car, .exs, .alm] s (reportSort serial r (sortAtDiverter serial x f s)) := fun r x f =>
    Touches.step (Touches.step (Touches.refl _ _) (sortAtDiverter_frame serial x f s) rfl)
      (reportSort_frame serial r _) rfl
  have hb := Touches.step (n := [.lnk, .ord, .ims, .car, .exs, .alm]) (Touches.refl _ s)
    (sortToBin_frame serial slot o s) rfl
  have hr := Touches.step (n := [.lnk, .ord, .ims, .car, .exs, .alm]) (Touches.refl _ s)
    (sendToRecure_frame serial s) rfl
  unfold routeGarment
  repeat' split
  all_goals with_reducible first | exact h _ _ _ | exact hb | exact hr

theorem reachDiverter_frame (serial : Nat) (s : State) :
    Touches [.lnk, .ord, .ims, .car, .ctc, .exs, .alm] s (reachDiverter serial s) := by
  unfold reachDiverter
  repeat' first
    | decide
    | with_reducible exact Touches.refl _ _
    | with_reducible refine Touches.step ?_ (routeGarment_frame _ _ _ _ _) ?_
    | with_reducible refine Touches.step ?_ (removeRider_frame _ _) ?_
    | with_reducible refine Touches.step ?_ (withGarment_frame _ _ _) ?_
    | split
    | dsimp only

theorem countHold_frame (s : State) : Touches [.exs] s (countHold s) := by
  unfold countHold
  repeat' first
    | decide
    | with_reducible exact Touches.refl _ _
    | with_reducible refine Touches.step ?_ (State.withExs_frame _ _) ?_
    | split

theorem beltCount_frame (s : State) : Touches [.lnk, .ord, .ims, .car, .ctc, .exs, .alm] s (beltCount s) := by
  unfold beltCount
  repeat' first
    | decide
    | with_reducible exact Touches.refl _ _
    | with_reducible refine Touches.stepFoldl ?_ _ (fun _ _ => ?_)
    | with_reducible refine Touches.stepFoldlPair ?_ _ (fun _ _ => ?_)
    | with_reducible refine Touches.step ?_ (countHold_frame _) ?_
    | with_reducible refine Touches.step ?_ (reachDiverter_frame _ _) ?_
    | with_reducible refine Touches.step ?_ (passExit_frame _ _) ?_
    | with_reducible refine Touches.step ?_ (writeBelt_frame _ _) ?_
    | with_reducible refine Touches.step ?_ (State.withCtc_frame _ _) ?_
    | split

theorem verify_frame (serial : Nat) (s : State) : Touches [.car] s (verify serial s) := by
  unfold verify
  repeat' first
    | decide
    | with_reducible exact Touches.refl _ _
    | with_reducible refine Touches.step ?_ (withGarment_frame _ _ _) ?_

theorem lateRecord_frame (serial : Nat) (s : State) :
    Touches [.lnk, .ord, .ims, .car, .ctc, .exs] s (lateRecord serial s) := by
  unfold lateRecord
  repeat' first
    | decide
    | with_reducible exact Touches.refl _ _
    | with_reducible refine Touches.stepFoldl ?_ _ (fun _ _ => ?_)
    | with_reducible refine Touches.stepFoldlPair ?_ _ (fun _ _ => ?_)
    | with_reducible refine Touches.step ?_ (verify_frame _ _) ?_
    | with_reducible refine Touches.step ?_ (sortMissing_frame _ _) ?_
    | with_reducible refine Touches.step ?_ (correctRider_frame _ _) ?_

theorem takeExit_frame (chars : List Byte) (s : State) :
    Touches [.lnk, .ord, .ims, .car, .ctc, .exs] s (takeExit chars s) := by
  unfold takeExit
  repeat' first
    | decide
    | with_reducible exact Touches.refl _ _
    | with_reducible refine Touches.step ?_ (lateRecord_frame _ _) ?_
    | with_reducible refine Touches.step ?_ (verify_frame _ _) ?_
    | with_reducible refine Touches.step ?_ (note_frame _ _) ?_
    | with_reducible refine Touches.step ?_ (State.withExs_frame _ _) ?_
    | split

theorem takeEntry_frame (chars : List Byte) (s : State) :
    Touches [.lnk, .car, .ctc, .exs] s (takeEntry chars s) := by
  unfold takeEntry
  repeat' first
    | decide
    | with_reducible exact Touches.refl _ _
    | with_reducible refine Touches.step ?_ (testRefeed_frame _) ?_
    | with_reducible refine Touches.step ?_ (setEntryLamp_frame _ _) ?_
    | with_reducible refine Touches.step ?_ (State.withCtc_frame _ _) ?_
    | split

theorem dropRecure_frame (serial : Nat) (s : State) :
    Touches [.lnk, .ord, .ims, .car, .ctc, .exs] s (dropRecure serial s) := by
  unfold dropRecure
  repeat' first
    | decide
    | with_reducible exact Touches.refl _ _
    | with_reducible refine Touches.step ?_ (reportSort_frame _ _ _) ?_
    | with_reducible refine Touches.step ?_ (sortRecord_frame _ _ _) ?_
    | with_reducible refine Touches.step ?_ (setEntryLamp_frame _ _) ?_
    | with_reducible refine Touches.step ?_ (State.withExs_frame _ _) ?_
    | with_reducible refine Touches.step ?_ (State.withCtc_frame _ _) ?_
    | split

theorem clearBin_frame (n : Nat) (s : State) : Touches [.lnk, .ord, .ims, .exs] s (clearBin n s) := by
  unfold clearBin
  repeat' first
    | decide
    | with_reducible exact Touches.refl _ _
    | with_reducible refine Touches.step ?_ (retire_frame _ _) ?_
    | with_reducible refine Touches.step ?_ (setBin_frame _ _ _) ?_
    | with_reducible refine Touches.step ?_ (withOrder_frame _ _ _) ?_
    | with_reducible refine Touches.step ?_ (note_frame _ _) ?_
    | split
    | dsimp only

theorem updateLamp_frame (s : State) : Touches [.lnk, .car] s (updateLamp s) := by
  unfold updateLamp
  repeat' first
    | decide
    | with_reducible exact Touches.refl _ _
    | with_reducible refine Touches.step ?_ (note_frame _ _) ?_
    | with_reducible refine Touches.step ?_ (State.withCar_frame _ _) ?_
    | split

theorem setScan_frame (r : ScanResult) (s : State) : Touches [.lnk, .car] s (setScan r s) := by
  unfold setScan
  repeat' first
    | decide
    | with_reducible exact Touches.refl _ _
    | with_reducible refine Touches.step ?_ (note_frame _ _) ?_
    | with_reducible refine Touches.step ?_ (State.withCar_frame _ _) ?_
    | split

theorem setLine_frame (l : LineState) (s : State) : Touches [.lnk, .car, .ptr, .ctc] s (setLine l s) := by
  unfold setLine
  repeat' first
    | decide
    | with_reducible exact Touches.refl _ _
    | with_reducible refine Touches.step ?_ (syncBelt_frame _) ?_
    | with_reducible refine Touches.step ?_ (note_frame _ _) ?_
    | with_reducible refine Touches.step ?_ (State.withCtc_frame _ _) ?_
    | with_reducible refine Touches.step ?_ (State.withPtr_frame _ _) ?_
    | with_reducible refine Touches.step ?_ (State.withCar_frame _ _) ?_
    | split

theorem pauseIndex_frame (s : State) : Touches [.car] s (pauseIndex s) := by
  unfold pauseIndex
  repeat' first
    | decide
    | with_reducible exact Touches.refl _ _
    | with_reducible refine Touches.step ?_ (State.withCar_frame _ _) ?_
    | split

theorem enterHalted_frame (s : State) :
    Touches [.lnk, .ims, .car, .ptr, .shf, .fdp, .ctc, .alm] s (enterHalted s) := by
  have h : Touches [.lnk, .ims, .car, .ptr, .shf, .fdp, .ctc, .alm] s (pauseIndex (setLine .halted s)) :=
    ((Touches.refl _ s).step (setLine_frame _ _) rfl).step (pauseIndex_frame _) rfl
  have k := ((((h.step (State.withCar_frame (fun c =>
      { c with transfer := if c.transfer = .running then .stopped else c.transfer }) _) rfl).step
    (endDrill_frame _) rfl).step (haltPretreat_frame _) rfl).step (haltFlash_frame _) rfl).step (haltPrint_frame _) rfl
  unfold enterHalted
  split
  · exact k
  · exact k
  · exact k
  · exact Touches.refl _ _

theorem resumeLine_frame (s : State) : Touches [.lnk, .ims, .car, .ptr, .shf, .alm] s (resumeLine s) := by
  unfold resumeLine
  repeat' first
    | decide
    | with_reducible exact Touches.refl _ _
    | with_reducible refine Touches.step ?_ (resumePrint_frame _) ?_
    | with_reducible refine Touches.step ?_ (resumeFlash_frame _) ?_
    | with_reducible refine Touches.step ?_ (resumePretreat_frame _) ?_
    | with_reducible refine Touches.step ?_ (State.withCar_frame _ _) ?_

theorem haltOnset_frame (i : Nat) (s : State) :
    Touches [.lnk, .ims, .car, .ptr, .shf, .fdp, .ctc, .alm] s (haltOnset i s) := by
  unfold haltOnset
  repeat' first
    | decide
    | with_reducible exact Touches.refl _ _
    | with_reducible refine Touches.step ?_ (enterHalted_frame _) ?_
    | with_reducible refine Touches.step ?_ (onset_frame _ _ _) ?_

theorem stopTest_frame (s : State) : Touches [.lnk, .car, .ptr, .ctc] s (stopTest s) := by
  unfold stopTest
  repeat' first
    | decide
    | with_reducible exact Touches.refl _ _
    | with_reducible refine Touches.step ?_ (setLine_frame _ _) ?_
    | split

theorem placeReported_frame (s : State) : Touches [.lnk, .car, .ptr, .ctc] s (placeReported s) := by
  unfold placeReported
  split
  · exact ((Touches.refl _ s).step (completeTransfer_frame _) rfl).step (stopTest_frame _) rfl
  · exact Touches.refl _ s

theorem enterRunning_frame (s : State) :
    Touches [.lnk, .ims, .car, .ptr, .shf, .ctc, .alm] s (enterRunning s) := by
  unfold enterRunning
  repeat' first
    | decide
    | with_reducible exact Touches.refl _ _
    | with_reducible refine Touches.step ?_ (resumeLine_frame _) ?_
    | with_reducible refine Touches.step ?_ (setLine_frame _ _) ?_
    | with_reducible refine Touches.step ?_ (setStation_frame _ _ _) ?_
    | split
    | dsimp only

theorem enterDraining_frame (s : State) :
    Touches [.lnk, .ims, .car, .ptr, .shf, .ctc, .alm] s (enterDraining s) := by
  unfold enterDraining
  repeat' first
    | decide
    | with_reducible exact Touches.refl _ _
    | with_reducible refine Touches.step ?_ (stopTest_frame _) ?_
    | with_reducible refine Touches.step ?_ (resumeLine_frame _) ?_
    | with_reducible refine Touches.step ?_ (setLine_frame _ _) ?_
    | with_reducible refine Touches.step ?_ (release_frame _ _) ?_
    | split

theorem tryIndex_frame (s : State) : Touches [.car] s (tryIndex s) := by
  unfold tryIndex
  repeat' first
    | decide
    | with_reducible exact Touches.refl _ _
    | with_reducible refine Touches.step ?_ (pauseIndex_frame _) ?_
    | with_reducible refine Touches.step ?_ (State.withCar_frame _ _) ?_
    | split

theorem advance_frame (s : State) : Touches [.lnk, .ims, .car, .ptr, .shf, .fdp] s (advance s) := by
  unfold advance
  repeat' first
    | decide
    | with_reducible exact Touches.refl _ _
    | with_reducible refine Touches.step ?_ (tryIndex_frame _) ?_
    | with_reducible refine Touches.step ?_ (updateLamp_frame _) ?_
    | with_reducible refine Touches.step ?_ (startPrint_frame _) ?_
    | with_reducible refine Touches.step ?_ (startTraverse_frame _) ?_

theorem arriveAtLoad_frame (s : State) : Touches [.car] s (arriveAtLoad s) := by
  unfold arriveAtLoad
  repeat' first
    | decide
    | with_reducible exact Touches.refl _ _
    | with_reducible refine Touches.step ?_ (setStation_frame _ _ _) ?_

theorem arrivals_frame (s : State) : Touches [.lnk, .ims, .car, .ptr, .shf, .ctc, .alm] s (arrivals s) := by
  have h : ∀ (st : Station) (f : Nat → State → State) (t : State),
      (∀ n u, Touches [.lnk, .ims, .car, .ptr, .shf, .ctc, .alm] u (f n u)) →
      Touches [.lnk, .ims, .car, .ptr, .shf, .ctc, .alm] t (arriveAt st f t) := by
    intro st f t hf
    unfold arriveAt
    split
    · exact ((Touches.refl _ t).step (setStation_frame _ _ _) rfl).step (hf _ _) rfl
    · exact (Touches.refl _ t).step (setStation_frame _ _ _) rfl
  exact ((((((Touches.refl _ s).step (arriveAtLoad_frame s) rfl).step
    (h .pretreat pretreatArrival _ fun n u => (Touches.refl _ u).step (pretreatArrival_frame n u) rfl) rfl).step
    (h .flash flashArrival _ fun n u => (Touches.refl _ u).step (flashArrival_frame n u) rfl) rfl).step
    (h .print printArrival _ fun n u => (Touches.refl _ u).step (printArrival_frame n u) rfl) rfl).step
    (h .unload unloadArrival _ fun n u => (Touches.refl _ u).step (unloadArrival_frame n u) rfl) rfl).step
    (takeTarget_frame _) rfl

theorem indexSensed_frame (s : State) : Touches [.lnk, .ims, .car, .ptr, .shf, .ctc, .alm] s (indexSensed s) := by
  unfold indexSensed
  repeat' first
    | decide
    | with_reducible exact Touches.refl _ _
    | with_reducible refine Touches.step ?_ (arrivals_frame _) ?_
    | with_reducible refine Touches.step ?_ (stopTest_frame _) ?_
    | with_reducible refine Touches.step ?_ (State.withCar_frame _ _) ?_
    | split

theorem indexExpired_frame (s : State) :
    Touches [.lnk, .ims, .car, .ptr, .shf, .fdp, .ctc, .alm] s (indexExpired s) := by
  unfold indexExpired
  repeat' first
    | decide
    | with_reducible exact Touches.refl _ _
    | with_reducible refine Touches.step ?_ (haltOnset_frame _ _) ?_
    | with_reducible refine Touches.step ?_ (State.withCar_frame _ _) ?_
    | split

theorem bindUnit_frame (seq : Nat) (u : UnitRec) (o : Order) (it : Item) (s : State) :
    Touches [.lnk, .ord, .ims, .car] s (bindUnit seq u o it s) := by
  unfold bindUnit
  repeat' first
    | decide
    | with_reducible exact Touches.refl _ _
    | with_reducible refine Touches.step ?_ (setScan_frame _ _) ?_
    | with_reducible refine Touches.step ?_ (moveUnit_frame _ _ _) ?_
    | with_reducible refine Touches.step ?_ (withImageId_frame _ _ _) ?_
    | with_reducible refine Touches.step ?_ (setContents_frame _ _ _) ?_
    | with_reducible refine Touches.step ?_ (State.withCar_frame _ _) ?_

theorem refuseScan_frame (r : ScanResult) (s : State) : Touches [.lnk, .car] s (refuseScan r s) := by
  unfold refuseScan
  repeat' first
    | decide
    | with_reducible exact Touches.refl _ _
    | with_reducible refine Touches.step ?_ (setScan_frame _ _) ?_
    | with_reducible refine Touches.step ?_ (State.withCar_frame _ _) ?_

theorem takeLoad_frame (chars : List Byte) (s : State) :
    Touches [.lnk, .ord, .ims, .car] s (takeLoad chars s) := by
  unfold takeLoad
  repeat' first
    | decide
    | with_reducible exact Touches.refl _ _
    | with_reducible refine Touches.step ?_ (refuseScan_frame _ _) ?_
    | with_reducible refine Touches.step ?_ (bindUnit_frame _ _ _ _ _) ?_
    | with_reducible refine Touches.step ?_ (State.withCar_frame _ _) ?_
    | split
    | dsimp only

theorem pressFoot_frame (s : State) : Touches [.lnk, .car] s (pressFoot s) := by
  unfold pressFoot
  repeat' first
    | decide
    | with_reducible exact Touches.refl _ _
    | with_reducible refine Touches.step ?_ (setStage_frame _ _ _) ?_
    | with_reducible refine Touches.step ?_ (release_frame _ _) ?_
    | with_reducible refine Touches.step ?_ (setContents_frame _ _ _) ?_
    | with_reducible refine Touches.step ?_ (State.withCar_frame _ _) ?_
    | split
    | dsimp only

theorem pressSkip_frame (s : State) : Touches [.lnk, .ord, .ims, .car, .ptr, .ctc, .exs] s (pressSkip s) := by
  unfold pressSkip
  repeat' first
    | decide
    | with_reducible exact Touches.refl _ _
    | with_reducible refine Touches.step ?_ (stopTest_frame _) ?_
    | with_reducible refine Touches.step ?_ (skipUnit_frame _ _) ?_
    | with_reducible refine Touches.step ?_ (returnImageRef_frame _ _) ?_
    | with_reducible refine Touches.step ?_ (release_frame _ _) ?_
    | with_reducible refine Touches.step ?_ (setContents_frame _ _ _) ?_
    | with_reducible refine Touches.step ?_ (State.withCar_frame _ _) ?_
    | split
    | dsimp only

theorem readEstop_frame (active : Bool) (s : State) :
    Touches [.pins, .lnk, .ims, .car, .ptr, .shf, .fdp, .ctc, .alm] s (readEstop active s) := by
  unfold readEstop
  repeat' first
    | decide
    | with_reducible exact Touches.refl _ _
    | with_reducible refine Touches.step ?_ (enterHalted_frame _) ?_
    | with_reducible refine Touches.step ?_ (reportCondition_frame _ _ _) ?_
    | with_reducible refine Touches.step ?_ (State.withPins_frame _ _) ?_
    | split
    | dsimp only

theorem judgeGuards_frame (s : State) : Touches [.lnk, .alm] s (judgeGuards s) := by
  unfold judgeGuards
  repeat' first
    | decide
    | with_reducible exact Touches.refl _ _
    | with_reducible refine Touches.step ?_ (reportCondition_frame _ _ _) ?_

theorem readGuard_frame (g : Nat) (high : Bool) (s : State) :
    Touches [.pins, .lnk, .alm] s (readGuard g high s) := by
  unfold readGuard
  repeat' first
    | decide
    | with_reducible exact Touches.refl _ _
    | with_reducible refine Touches.step ?_ (judgeGuards_frame _) ?_
    | with_reducible refine Touches.step ?_ (State.withPins_frame _ _) ?_

theorem firstReading_frame (s : State) :
    Touches [.pins, .lnk, .ims, .car, .ptr, .shf, .fdp, .ctc, .alm] s (firstReading s) := by
  unfold firstReading
  repeat' first
    | decide
    | with_reducible exact Touches.refl _ _
    | with_reducible refine Touches.step ?_ (judgeGuards_frame _) ?_
    | with_reducible refine Touches.step ?_ (readEstop_frame _ _) ?_

theorem setScanner_frame (l : ScanLine) (c : Scanner) (s : State) : Touches [.alm] s (setScanner l c s) := by
  unfold setScanner
  repeat' first
    | decide
    | with_reducible exact Touches.refl _ _
    | with_reducible refine Touches.step ?_ (State.withAlm_frame _ _) ?_

theorem handRecord_frame (l : ScanLine) (chars : List Byte) (s : State) :
    Touches [.lnk, .ord, .ims, .car, .ctc, .exs] s (handRecord l chars s) := by
  unfold handRecord
  repeat' first
    | decide
    | with_reducible exact Touches.refl _ _
    | with_reducible refine Touches.step ?_ (takeLoad_frame _ _) ?_
    | with_reducible refine Touches.step ?_ (takeEntry_frame _ _) ?_
    | with_reducible refine Touches.step ?_ (takeExit_frame _ _) ?_
    | split

theorem discardRecord_frame (l : ScanLine) (s : State) : Touches [.lnk, .alm] s (discardRecord l s) := by
  unfold discardRecord
  repeat' first
    | decide
    | with_reducible exact Touches.refl _ _
    | with_reducible refine Touches.step ?_ (setScanner_frame _ _ _) ?_
    | with_reducible refine Touches.step ?_ (onset_frame _ _ _) ?_

theorem takeChar_frame (l : ScanLine) (c : Byte) (s : State) :
    Touches [.lnk, .ord, .ims, .car, .ctc, .exs, .alm] s (takeChar l c s) := by
  unfold takeChar
  repeat' first
    | decide
    | with_reducible exact Touches.refl _ _
    | with_reducible refine Touches.step ?_ (discardRecord_frame _ _) ?_
    | with_reducible refine Touches.step ?_ (handRecord_frame _ _ _) ?_
    | with_reducible refine Touches.step ?_ (setScanner_frame _ _ _) ?_
    | split
    | dsimp only

theorem framingFault_frame (l : ScanLine) (s : State) : Touches [.lnk, .alm] s (framingFault l s) := by
  unfold framingFault
  repeat' first
    | decide
    | with_reducible exact Touches.refl _ _
    | with_reducible refine Touches.step ?_ (discardRecord_frame _ _) ?_
    | split

theorem acknowledgeAt_frame (i : Nat) (s : State) :
    Touches [.lnk, .car, .ptr, .shf, .alm] s (acknowledgeAt i s) := by
  unfold acknowledgeAt
  repeat' first
    | decide
    | with_reducible exact Touches.refl _ _
    | with_reducible refine Touches.step ?_ (encoderIdle_frame _) ?_
    | with_reducible refine Touches.step ?_ (endHotWait_frame _) ?_
    | with_reducible refine Touches.step ?_ (acknowledge_frame _ _) ?_
    | split
    | dsimp only

theorem stepDrill_frame (s : State) : Touches [.lnk, .alm] s (stepDrill s) := by
  unfold stepDrill
  split
  · exact (Touches.refl _ s).step (endDrill_frame _) rfl
  · exact Touches.stepFoldl ((Touches.refl _ s).step (State.withAlm_frame _ _) rfl) _
      (fun a b => (Touches.refl _ a).step (simulate_frame b a) rfl)

theorem transmit_frame (s : State) : Touches [.lnk] s (transmit s) := by
  unfold transmit
  repeat' first
    | decide
    | with_reducible exact Touches.refl _ _
    | with_reducible refine Touches.step ?_ (State.withLnk_frame _ _) ?_
    | split

theorem settle_frame (s : State) : Touches [.lnk, .ims, .car, .ptr, .shf, .fdp] s (settle s) := by
  unfold settle
  repeat' first
    | decide
    | with_reducible exact Touches.refl _ _
    | with_reducible refine Touches.step ?_ (transmit_frame _) ?_
    | with_reducible refine Touches.step ?_ (advance_frame _) ?_

theorem sendingReport_frame (k : Sending) (s : State) : Touches [.ord, .ims, .car] s (sendingReport k s) := by
  unfold sendingReport
  repeat' first
    | decide
    | with_reducible exact Touches.refl _ _
    | with_reducible refine Touches.step ?_ (State.withCar_frame _ _) ?_
    | with_reducible refine Touches.step ?_ (State.withIms_frame _ _) ?_
    | with_reducible refine Touches.step ?_ (State.withOrd_frame _ _) ?_
    | split

theorem noticeRead_frame (s : State) : Touches [.lnk, .ord, .ims, .car] s (noticeRead s) := by
  unfold noticeRead
  repeat' first
    | decide
    | with_reducible exact Touches.refl _ _
    | with_reducible refine Touches.step ?_ (sendingReport_frame _ _) ?_
    | with_reducible refine Touches.step ?_ (transmit_frame _) ?_
    | with_reducible refine Touches.step ?_ (State.withLnk_frame _ _) ?_
    | split

theorem dropLink_frame (s : State) : Touches [.lnk] s (dropLink s) := by
  unfold dropLink
  repeat' first
    | decide
    | with_reducible exact Touches.refl _ _
    | with_reducible refine Touches.step ?_ (State.withLnk_frame _ _) ?_

theorem placeReply_frame (f : Frame) (s : State) : Touches [.lnk] s (placeReply f s) := by
  unfold placeReply
  repeat' first
    | decide
    | with_reducible exact Touches.refl _ _
    | with_reducible refine Touches.step ?_ (State.withLnk_frame _ _) ?_

theorem clearAll_frame (s : State) :
    Touches [.lnk, .ord, .ims, .car, .ptr, .shf, .fdp, .ctc, .exs, .alm] s (clearAll s) := by
  have h : ∀ t, Touches [.shf] t (resetShuttle t) := resetShuttle_frame
  unfold clearAll
  refine Touches.step ?_ (h _) rfl
  constructor <;> first | exact rfl | exact fun _ => rfl | exact fun e => absurd e (by decide)

theorem decideReset_frame (s : State) :
    Touches [.pins, .lnk, .ord, .ims, .car, .ptr, .shf, .fdp, .ctc, .exs, .alm] s (decideReset s).state := by
  unfold decideReset
  repeat' first
    | decide
    | with_reducible exact Touches.refl _ _
    | with_reducible refine Touches.ofRefuse ?_
    | with_reducible refine Touches.ofAccept ?_
    | with_reducible refine Touches.ofAnswer ?_
    | with_reducible refine Touches.step ?_ (clearAll_frame _) ?_
    | with_reducible refine Touches.step ?_ (firstReading_frame _) ?_
    | with_reducible refine Touches.step ?_ (note_frame _ _) ?_
    | split

theorem storeSettings_frame (l : LineSettings) (s : State) :
    Touches [.lnk, .ims, .prf, .car, .ptr, .shf, .fdp, .alm] s (storeSettings l s) := by
  unfold storeSettings
  repeat' first
    | decide
    | with_reducible exact Touches.refl _ _
    | with_reducible refine Touches.step ?_ (judgeGuards_frame _) ?_
    | with_reducible refine Touches.step ?_ (advance_frame _) ?_
    | with_reducible refine Touches.step ?_ (retestFluid_frame _) ?_
    | with_reducible refine Touches.step ?_ (State.withPtr_frame _ _) ?_
    | with_reducible refine Touches.step ?_ (State.withPrf_frame _ _) ?_
    | split
    | dsimp only

theorem decideConfig_frame (key : Bool) (es : List SettingEntry) (s : State) :
    Touches [.pins, .lnk, .ims, .prf, .car, .ptr, .shf, .fdp, .alm] s (decideConfig key es s).state := by
  unfold decideConfig
  repeat' first
    | decide
    | with_reducible exact Touches.refl _ _
    | with_reducible refine Touches.ofRefuse ?_
    | with_reducible refine Touches.ofAccept ?_
    | with_reducible refine Touches.ofAnswer ?_
    | with_reducible refine Touches.step ?_ (storeSettings_frame _ _) ?_
    | with_reducible refine Touches.step ?_ (State.withPins_frame _ _) ?_
    | split
    | dsimp only

theorem decideProfile_frame (key : Bool) (id : Nat) (b : ProfileBody) (s : State) :
    Touches [.pins, .prf] s (decideProfile key id b s).state := by
  unfold decideProfile
  repeat' first
    | decide
    | with_reducible exact Touches.refl _ _
    | with_reducible refine Touches.ofRefuse ?_
    | with_reducible refine Touches.ofAccept ?_
    | with_reducible refine Touches.ofAnswer ?_
    | with_reducible refine Touches.step ?_ (State.withPrf_frame _ _) ?_
    | with_reducible refine Touches.step ?_ (State.withPins_frame _ _) ?_
    | split
    | dsimp only

theorem decideProfileGet_frame (id : Nat) (s : State) : Touches [] s (decideProfileGet id s).state := by
  unfold decideProfileGet
  repeat' first
    | decide
    | with_reducible exact Touches.refl _ _
    | with_reducible refine Touches.ofRefuse ?_
    | with_reducible refine Touches.ofAccept ?_
    | with_reducible refine Touches.ofAnswer ?_
    | split

theorem decideCure_frame (b : CureBody) (s : State) : Touches [.prf, .ctc] s (decideCure b s).state := by
  unfold decideCure
  repeat' first
    | decide
    | with_reducible exact Touches.refl _ _
    | with_reducible refine Touches.ofRefuse ?_
    | with_reducible refine Touches.ofAccept ?_
    | with_reducible refine Touches.ofAnswer ?_
    | with_reducible refine Touches.step ?_ (recomputeSpeed_frame _) ?_
    | with_reducible refine Touches.step ?_ (State.withPrf_frame _ _) ?_
    | split
    | dsimp only

theorem decideSpit_frame (b : SpitBody) (s : State) : Touches [.prf, .fdp] s (decideSpit b s).state := by
  unfold decideSpit
  repeat' first
    | decide
    | with_reducible exact Touches.refl _ _
    | with_reducible refine Touches.ofRefuse ?_
    | with_reducible refine Touches.ofAccept ?_
    | with_reducible refine Touches.ofAnswer ?_
    | with_reducible refine Touches.step ?_ (State.withFdp_frame _ _) ?_
    | with_reducible refine Touches.step ?_ (State.withPrf_frame _ _) ?_
    | split

theorem decideNozzleSet_frame (es : List NozzleEntry) (s : State) :
    Touches [.fdp] s (decideNozzleSet es s).state := by
  unfold decideNozzleSet
  repeat' first
    | decide
    | with_reducible exact Touches.refl _ _
    | with_reducible refine Touches.ofRefuse ?_
    | with_reducible refine Touches.ofAccept ?_
    | with_reducible refine Touches.ofAnswer ?_
    | with_reducible refine Touches.step ?_ (State.withFdp_frame _ _) ?_
    | split

theorem decideNozzleGet_frame (c r : Nat) (s : State) : Touches [] s (decideNozzleGet c r s).state := by
  unfold decideNozzleGet
  repeat' first
    | decide
    | with_reducible exact Touches.refl _ _
    | with_reducible refine Touches.ofRefuse ?_
    | with_reducible refine Touches.ofAccept ?_
    | with_reducible refine Touches.ofAnswer ?_
    | split

theorem decideOpen_frame (id w h x0 y0 channels rush : Nat) (s : State) :
    Touches [.lnk, .ims] s (decideOpen id w h x0 y0 channels rush s).state := by
  unfold decideOpen
  repeat' first
    | decide
    | with_reducible exact Touches.refl _ _
    | with_reducible refine Touches.ofRefuse ?_
    | with_reducible refine Touches.ofAccept ?_
    | with_reducible refine Touches.ofAnswer ?_
    | with_reducible refine Touches.step ?_ (note_frame _ _) ?_
    | with_reducible refine Touches.step ?_ (State.withIms_frame _ _) ?_
    | split
    | dsimp only

theorem writePlane_frame (slot k page : Nat) (bytes : List Byte) (s : State) :
    Touches [.ims] s (writePlane slot k page bytes s) := by
  unfold writePlane
  repeat' first
    | decide
    | with_reducible exact Touches.refl _ _
    | with_reducible refine Touches.step ?_ (setPlane_frame _ _ _ _) ?_
    | with_reducible refine Touches.step ?_ (State.withIms_frame _ _) ?_

theorem decideBand_frame (ch b encoding : Nat) (data : List Byte) (s : State) :
    Touches [.ims] s (decideBand ch b encoding data s).state := by
  unfold decideBand
  repeat' first
    | decide
    | with_reducible exact Touches.refl _ _
    | with_reducible refine Touches.ofRefuse ?_
    | with_reducible refine Touches.ofAccept ?_
    | with_reducible refine Touches.ofAnswer ?_
    | with_reducible refine Touches.step ?_ (writePlane_frame _ _ _ _ _) ?_
    | split

theorem decideClose_frame (s : State) : Touches [.lnk, .ord, .ims] s (decideClose s).state := by
  unfold decideClose
  repeat' first
    | decide
    | with_reducible exact Touches.refl _ _
    | with_reducible refine Touches.ofRefuse ?_
    | with_reducible refine Touches.ofAccept ?_
    | with_reducible refine Touches.ofAnswer ?_
    | with_reducible refine Touches.step ?_ (advanceScan_frame _) ?_
    | with_reducible refine Touches.step ?_ (withImage_frame _ _ _) ?_
    | with_reducible refine Touches.step ?_ (note_frame _ _) ?_
    | with_reducible refine Touches.step ?_ (State.withIms_frame _ _) ?_
    | split

theorem decideAbort_frame (s : State) : Touches [.lnk, .ims] s (decideAbort s).state := by
  unfold decideAbort
  repeat' first
    | decide
    | with_reducible exact Touches.refl _ _
    | with_reducible refine Touches.ofRefuse ?_
    | with_reducible refine Touches.ofAccept ?_
    | with_reducible refine Touches.ofAnswer ?_
    | with_reducible refine Touches.step ?_ (removeImage_frame _ _) ?_
    | split

theorem markImageGone_frame (slot id : Nat) (s : State) : Touches [.ims, .car] s (markImageGone slot id s) := by
  unfold markImageGone
  repeat' first
    | decide
    | with_reducible exact Touches.refl _ _
    | with_reducible refine Touches.step ?_ (withImage_frame _ _ _) ?_
    | with_reducible refine Touches.step ?_ (State.withCar_frame _ _) ?_

theorem decideDelete_frame (id : Nat) (s : State) :
    Touches [.lnk, .ord, .ims, .car] s (decideDelete id s).state := by
  unfold decideDelete
  repeat' first
    | decide
    | with_reducible exact Touches.refl _ _
    | with_reducible refine Touches.ofRefuse ?_
    | with_reducible refine Touches.ofAccept ?_
    | with_reducible refine Touches.ofAnswer ?_
    | with_reducible refine Touches.step ?_ (markImageGone_frame _ _ _) ?_
    | with_reducible refine Touches.step ?_ (dropScan_frame _ _) ?_
    | with_reducible refine Touches.step ?_ (advanceScan_frame _) ?_
    | with_reducible refine Touches.step ?_ (removeImage_frame _ _) ?_
    | with_reducible refine Touches.step ?_ (imageDeletedReport_frame _ _) ?_
    | split

theorem decideImageGet_frame (id : Nat) (s : State) : Touches [] s (decideImageGet id s).state := by
  unfold decideImageGet
  repeat' first
    | decide
    | with_reducible exact Touches.refl _ _
    | with_reducible refine Touches.ofRefuse ?_
    | with_reducible refine Touches.ofAccept ?_
    | with_reducible refine Touches.ofAnswer ?_
    | split

theorem enterOrder_frame (slot id : Nat) (p : Priority) (items : List Item) (s : State) :
    Touches [.lnk, .ord, .ims] s (enterOrder slot id p items s) := by
  unfold enterOrder
  repeat' first
    | decide
    | with_reducible exact Touches.refl _ _
    | with_reducible refine Touches.step ?_ (addUnits_frame _ _ _ _) ?_
    | with_reducible refine Touches.step ?_ (note_frame _ _) ?_
    | with_reducible refine Touches.step ?_ (State.withOrd_frame _ _) ?_

theorem decideAdd_frame (id priority : Nat) (items : List ItemBody) (s : State) :
    Touches [.lnk, .ord, .ims] s (decideAdd id priority items s).state := by
  unfold decideAdd
  repeat' first
    | decide
    | with_reducible exact Touches.refl _ _
    | with_reducible refine Touches.ofRefuse ?_
    | with_reducible refine Touches.ofAccept ?_
    | with_reducible refine Touches.ofAnswer ?_
    | with_reducible refine Touches.step ?_ (enterOrder_frame _ _ _ _ _) ?_
    | split
    | dsimp only

theorem rushUnits_frame (slot : Nat) (s : State) : Touches [.ord] s (rushUnits slot s) := by
  unfold rushUnits
  repeat' first
    | decide
    | with_reducible exact Touches.refl _ _
    | with_reducible refine Touches.stepFoldl ?_ _ (fun _ _ => ?_)
    | with_reducible refine Touches.stepFoldlPair ?_ _ (fun _ _ => ?_)
    | with_reducible refine Touches.step ?_ (classUnit_frame _ _ _) ?_
    | split

theorem decideRush_frame (id : Nat) (s : State) : Touches [.lnk, .ord] s (decideRush id s).state := by
  unfold decideRush
  repeat' first
    | decide
    | with_reducible exact Touches.refl _ _
    | with_reducible refine Touches.ofRefuse ?_
    | with_reducible refine Touches.ofAccept ?_
    | with_reducible refine Touches.ofAnswer ?_
    | with_reducible refine Touches.step ?_ (rushUnits_frame _ _) ?_
    | with_reducible refine Touches.step ?_ (withOrder_frame _ _ _) ?_
    | with_reducible refine Touches.step ?_ (note_frame _ _) ?_
    | split

theorem removeWaiting_frame (slot : Nat) (s : State) : Touches [.lnk, .ord, .ims] s (removeWaiting slot s) := by
  unfold removeWaiting
  repeat' first
    | decide
    | with_reducible exact Touches.refl _ _
    | with_reducible refine Touches.stepFoldl ?_ _ (fun _ _ => ?_)
    | with_reducible refine Touches.stepFoldlPair ?_ _ (fun _ _ => ?_)
    | with_reducible refine Touches.step ?_ (dropUnit_frame _ _) ?_
    | split

theorem decideCancel_frame (id : Nat) (s : State) :
    Touches [.lnk, .ord, .ims, .exs] s (decideCancel id s).state := by
  unfold decideCancel
  repeat' first
    | decide
    | with_reducible exact Touches.refl _ _
    | with_reducible refine Touches.ofRefuse ?_
    | with_reducible refine Touches.ofAccept ?_
    | with_reducible refine Touches.ofAnswer ?_
    | with_reducible refine Touches.step ?_ (removeWaiting_frame _ _) ?_
    | with_reducible refine Touches.step ?_ (retireCancelled_frame _ _) ?_
    | with_reducible refine Touches.step ?_ (withOrder_frame _ _ _) ?_
    | with_reducible refine Touches.step ?_ (note_frame _ _) ?_
    | split

theorem decideOrderGet_frame (id : Nat) (s : State) : Touches [] s (decideOrderGet id s).state := by
  unfold decideOrderGet
  repeat' first
    | decide
    | with_reducible exact Touches.refl _ _
    | with_reducible refine Touches.ofRefuse ?_
    | with_reducible refine Touches.ofAccept ?_
    | with_reducible refine Touches.ofAnswer ?_
    | split

theorem decideGarmentGet_frame (serial : Nat) (s : State) : Touches [] s (decideGarmentGet serial s).state := by
  unfold decideGarmentGet
  repeat' first
    | decide
    | with_reducible exact Touches.refl _ _
    | with_reducible refine Touches.ofRefuse ?_
    | with_reducible refine Touches.ofAccept ?_
    | with_reducible refine Touches.ofAnswer ?_
    | split

theorem decideRecureDrop_frame (serial : Nat) (s : State) :
    Touches [.lnk, .ord, .ims, .car, .ctc, .exs] s (decideRecureDrop serial s).state := by
  unfold decideRecureDrop
  repeat' first
    | decide
    | with_reducible exact Touches.refl _ _
    | with_reducible refine Touches.ofRefuse ?_
    | with_reducible refine Touches.ofAccept ?_
    | with_reducible refine Touches.ofAnswer ?_
    | with_reducible refine Touches.step ?_ (dropRecure_frame _ _) ?_
    | split

theorem decideBinClear_frame (n force : Nat) (s : State) :
    Touches [.lnk, .ord, .ims, .exs] s (decideBinClear n force s).state := by
  unfold decideBinClear
  repeat' first
    | decide
    | with_reducible exact Touches.refl _ _
    | with_reducible refine Touches.ofRefuse ?_
    | with_reducible refine Touches.ofAccept ?_
    | with_reducible refine Touches.ofAnswer ?_
    | with_reducible refine Touches.step ?_ (clearBin_frame _ _) ?_
    | split

theorem decideFilled_frame (s : State) :
    Touches [.lnk, .ims, .car, .ptr, .shf, .fdp, .alm] s (decideFilled s).state := by
  unfold decideFilled
  repeat' first
    | decide
    | with_reducible exact Touches.refl _ _
    | with_reducible refine Touches.ofRefuse ?_
    | with_reducible refine Touches.ofAccept ?_
    | with_reducible refine Touches.ofAnswer ?_
    | with_reducible refine Touches.step ?_ (advance_frame _) ?_
    | with_reducible refine Touches.step ?_ (retestFluid_frame _) ?_
    | with_reducible refine Touches.step ?_ (reportCondition_frame _ _ _) ?_
    | with_reducible refine Touches.step ?_ (State.withPtr_frame _ _) ?_

theorem decideStart_frame (s : State) :
    Touches [.lnk, .ims, .car, .ptr, .shf, .fdp, .ctc, .alm] s (decideStart s).state := by
  unfold decideStart
  repeat' first
    | decide
    | with_reducible exact Touches.refl _ _
    | with_reducible refine Touches.ofRefuse ?_
    | with_reducible refine Touches.ofAccept ?_
    | with_reducible refine Touches.ofAnswer ?_
    | with_reducible refine Touches.step ?_ (advance_frame _) ?_
    | with_reducible refine Touches.step ?_ (enterRunning_frame _) ?_
    | split

theorem decideStop_frame (s : State) :
    Touches [.lnk, .ims, .car, .ptr, .shf, .fdp, .ctc, .alm] s (decideStop s).state := by
  unfold decideStop
  repeat' first
    | decide
    | with_reducible exact Touches.refl _ _
    | with_reducible refine Touches.ofRefuse ?_
    | with_reducible refine Touches.ofAccept ?_
    | with_reducible refine Touches.ofAnswer ?_
    | with_reducible refine Touches.step ?_ (advance_frame _) ?_
    | with_reducible refine Touches.step ?_ (enterDraining_frame _) ?_
    | split

theorem decideHalt_frame (s : State) :
    Touches [.lnk, .ims, .car, .ptr, .shf, .fdp, .ctc, .alm] s (decideHalt s).state := by
  unfold decideHalt
  repeat' first
    | decide
    | with_reducible exact Touches.refl _ _
    | with_reducible refine Touches.ofRefuse ?_
    | with_reducible refine Touches.ofAccept ?_
    | with_reducible refine Touches.ofAnswer ?_
    | with_reducible refine Touches.step ?_ (advance_frame _) ?_
    | with_reducible refine Touches.step ?_ (enterHalted_frame _) ?_

theorem decideAlarmGet_frame (kind number : Nat) (s : State) :
    Touches [] s (decideAlarmGet kind number s).state := by
  unfold decideAlarmGet
  repeat' first
    | decide
    | with_reducible exact Touches.refl _ _
    | with_reducible refine Touches.ofRefuse ?_
    | with_reducible refine Touches.ofAccept ?_
    | with_reducible refine Touches.ofAnswer ?_
    | split

theorem decideAck_frame (kind number count : Nat) (s : State) :
    Touches [.lnk, .ims, .car, .ptr, .shf, .fdp, .alm] s (decideAck kind number count s).state := by
  unfold decideAck
  repeat' first
    | decide
    | with_reducible exact Touches.refl _ _
    | with_reducible refine Touches.ofRefuse ?_
    | with_reducible refine Touches.ofAccept ?_
    | with_reducible refine Touches.ofAnswer ?_
    | with_reducible refine Touches.step ?_ (acknowledgeAt_frame _ _) ?_
    | with_reducible refine Touches.step ?_ (advance_frame _) ?_
    | split

theorem decideDrill_frame (s : State) : Touches [.lnk, .alm] s (decideDrill s).state := by
  unfold decideDrill
  repeat' first
    | decide
    | with_reducible exact Touches.refl _ _
    | with_reducible refine Touches.ofRefuse ?_
    | with_reducible refine Touches.ofAccept ?_
    | with_reducible refine Touches.ofAnswer ?_
    | with_reducible refine Touches.step ?_ (stepDrill_frame _) ?_
    | split

theorem sampleTunnel_frame (z1 z2 z3 : Reading) (s : State) :
    Touches [.lnk, .car, .ctc, .exs, .alm] s (sampleTunnel z1 z2 z3 s) := by
  unfold sampleTunnel
  repeat' first
    | decide
    | with_reducible exact Touches.refl _ _
    | with_reducible refine Touches.step ?_ (testClaims_frame _) ?_
    | with_reducible refine Touches.step ?_ (countSample_frame _) ?_
    | with_reducible refine Touches.step ?_ (accrue_frame _) ?_
    | with_reducible refine Touches.step ?_ (driveZone_frame _ _ _) ?_
    | with_reducible refine Touches.step ?_ (superviseZone_frame _ _ _) ?_

theorem stallBelt_frame (s : State) :
    Touches [.lnk, .ims, .car, .ptr, .shf, .fdp, .ctc, .alm] s (stallBelt s) := by
  unfold stallBelt
  repeat' first
    | decide
    | with_reducible exact Touches.refl _ _
    | with_reducible refine Touches.step ?_ (haltOnset_frame _ _) ?_
    | split

theorem endHold_frame (s : State) : Touches [.exs] s (endHold s) := by
  unfold endHold
  repeat' first
    | decide
    | with_reducible exact Touches.refl _ _
    | with_reducible refine Touches.step ?_ (State.withExs_frame _ _) ?_
    | split

end Sys2Proof.Machine
end

