-- ==== Sys2Proof/Laws/Keeps.lean ====
section
/-!
SUPPORT. The frames of Laws/Frames.lean as rewriting rules, for the operations that the meanings call: each block that
an operation does not write reads after it as before.
-/

namespace Sys2Proof.Machine

@[simp] theorem note_keeps (r : Ref) (s : State) :
    (note r s).clock = s.clock ∧ (note r s).pins = s.pins ∧ (note r s).ord = s.ord ∧ (note r s).ims = s.ims ∧
    (note r s).prf = s.prf ∧ (note r s).car = s.car ∧ (note r s).ptr = s.ptr ∧ (note r s).shf = s.shf ∧
    (note r s).fdp = s.fdp ∧ (note r s).ctc = s.ctc ∧ (note r s).exs = s.exs ∧ (note r s).alm = s.alm ∧
    (note r s).pending = s.pending :=
  have h := note_frame r s
  ⟨h.clock, h.pins rfl, h.ord rfl, h.ims rfl, h.prf rfl, h.car rfl, h.ptr rfl, h.shf rfl, h.fdp rfl, h.ctc rfl, h.exs rfl, h.alm rfl, h.pending⟩

@[simp] theorem withImage_keeps (slot : Nat) (f : Image → Image) (s : State) :
    (withImage slot f s).clock = s.clock ∧ (withImage slot f s).pins = s.pins ∧
    (withImage slot f s).lnk = s.lnk ∧ (withImage slot f s).ord = s.ord ∧ (withImage slot f s).prf = s.prf ∧
    (withImage slot f s).car = s.car ∧ (withImage slot f s).ptr = s.ptr ∧ (withImage slot f s).shf = s.shf ∧
    (withImage slot f s).fdp = s.fdp ∧ (withImage slot f s).ctc = s.ctc ∧ (withImage slot f s).exs = s.exs ∧
    (withImage slot f s).alm = s.alm ∧ (withImage slot f s).pending = s.pending :=
  have h := withImage_frame slot f s
  ⟨h.clock, h.pins rfl, h.lnk rfl, h.ord rfl, h.prf rfl, h.car rfl, h.ptr rfl, h.shf rfl, h.fdp rfl, h.ctc rfl, h.exs rfl, h.alm rfl, h.pending⟩

@[simp] theorem reportCondition_keeps (i : Nat) (now : Bool) (s : State) :
    (reportCondition i now s).clock = s.clock ∧ (reportCondition i now s).pins = s.pins ∧
    (reportCondition i now s).ord = s.ord ∧ (reportCondition i now s).ims = s.ims ∧
    (reportCondition i now s).prf = s.prf ∧ (reportCondition i now s).car = s.car ∧
    (reportCondition i now s).ptr = s.ptr ∧ (reportCondition i now s).shf = s.shf ∧
    (reportCondition i now s).fdp = s.fdp ∧ (reportCondition i now s).ctc = s.ctc ∧
    (reportCondition i now s).exs = s.exs ∧ (reportCondition i now s).pending = s.pending :=
  have h := reportCondition_frame i now s
  ⟨h.clock, h.pins rfl, h.ord rfl, h.ims rfl, h.prf rfl, h.car rfl, h.ptr rfl, h.shf rfl, h.fdp rfl, h.ctc rfl, h.exs rfl, h.pending⟩

@[simp] theorem withOrder_keeps (slot : Nat) (f : Order → Order) (s : State) :
    (withOrder slot f s).clock = s.clock ∧ (withOrder slot f s).pins = s.pins ∧
    (withOrder slot f s).lnk = s.lnk ∧ (withOrder slot f s).ims = s.ims ∧ (withOrder slot f s).prf = s.prf ∧
    (withOrder slot f s).car = s.car ∧ (withOrder slot f s).ptr = s.ptr ∧ (withOrder slot f s).shf = s.shf ∧
    (withOrder slot f s).fdp = s.fdp ∧ (withOrder slot f s).ctc = s.ctc ∧ (withOrder slot f s).exs = s.exs ∧
    (withOrder slot f s).alm = s.alm ∧ (withOrder slot f s).pending = s.pending :=
  have h := withOrder_frame slot f s
  ⟨h.clock, h.pins rfl, h.lnk rfl, h.ims rfl, h.prf rfl, h.car rfl, h.ptr rfl, h.shf rfl, h.fdp rfl, h.ctc rfl, h.exs rfl, h.alm rfl, h.pending⟩

@[simp] theorem dropUnit_keeps (seq : Nat) (s : State) :
    (dropUnit seq s).clock = s.clock ∧ (dropUnit seq s).pins = s.pins ∧ (dropUnit seq s).prf = s.prf ∧
    (dropUnit seq s).car = s.car ∧ (dropUnit seq s).ptr = s.ptr ∧ (dropUnit seq s).shf = s.shf ∧
    (dropUnit seq s).fdp = s.fdp ∧ (dropUnit seq s).ctc = s.ctc ∧ (dropUnit seq s).exs = s.exs ∧
    (dropUnit seq s).alm = s.alm ∧ (dropUnit seq s).pending = s.pending :=
  have h := dropUnit_frame seq s
  ⟨h.clock, h.pins rfl, h.prf rfl, h.car rfl, h.ptr rfl, h.shf rfl, h.fdp rfl, h.ctc rfl, h.exs rfl, h.alm rfl, h.pending⟩

@[simp] theorem classUnit_keeps (seq : Nat) (c : UnitClass) (s : State) :
    (classUnit seq c s).clock = s.clock ∧ (classUnit seq c s).pins = s.pins ∧ (classUnit seq c s).lnk = s.lnk ∧
    (classUnit seq c s).ims = s.ims ∧ (classUnit seq c s).prf = s.prf ∧ (classUnit seq c s).car = s.car ∧
    (classUnit seq c s).ptr = s.ptr ∧ (classUnit seq c s).shf = s.shf ∧ (classUnit seq c s).fdp = s.fdp ∧
    (classUnit seq c s).ctc = s.ctc ∧ (classUnit seq c s).exs = s.exs ∧ (classUnit seq c s).alm = s.alm ∧
    (classUnit seq c s).pending = s.pending :=
  have h := classUnit_frame seq c s
  ⟨h.clock, h.pins rfl, h.lnk rfl, h.ims rfl, h.prf rfl, h.car rfl, h.ptr rfl, h.shf rfl, h.fdp rfl, h.ctc rfl, h.exs rfl, h.alm rfl, h.pending⟩

@[simp] theorem retireCancelled_keeps (slot : Nat) (s : State) :
    (retireCancelled slot s).clock = s.clock ∧ (retireCancelled slot s).pins = s.pins ∧
    (retireCancelled slot s).prf = s.prf ∧ (retireCancelled slot s).car = s.car ∧
    (retireCancelled slot s).ptr = s.ptr ∧ (retireCancelled slot s).shf = s.shf ∧
    (retireCancelled slot s).fdp = s.fdp ∧ (retireCancelled slot s).ctc = s.ctc ∧
    (retireCancelled slot s).alm = s.alm ∧ (retireCancelled slot s).pending = s.pending :=
  have h := retireCancelled_frame slot s
  ⟨h.clock, h.pins rfl, h.prf rfl, h.car rfl, h.ptr rfl, h.shf rfl, h.fdp rfl, h.ctc rfl, h.alm rfl, h.pending⟩

@[simp] theorem imageDeletedReport_keeps (_id : Nat) (s : State) :
    (imageDeletedReport _id s).clock = s.clock ∧ (imageDeletedReport _id s).pins = s.pins ∧
    (imageDeletedReport _id s).lnk = s.lnk ∧ (imageDeletedReport _id s).ord = s.ord ∧
    (imageDeletedReport _id s).ims = s.ims ∧ (imageDeletedReport _id s).prf = s.prf ∧
    (imageDeletedReport _id s).car = s.car ∧ (imageDeletedReport _id s).ptr = s.ptr ∧
    (imageDeletedReport _id s).shf = s.shf ∧ (imageDeletedReport _id s).fdp = s.fdp ∧
    (imageDeletedReport _id s).ctc = s.ctc ∧ (imageDeletedReport _id s).exs = s.exs ∧
    (imageDeletedReport _id s).alm = s.alm ∧ (imageDeletedReport _id s).pending = s.pending :=
  have h := imageDeletedReport_frame _id s
  ⟨h.clock, h.pins rfl, h.lnk rfl, h.ord rfl, h.ims rfl, h.prf rfl, h.car rfl, h.ptr rfl, h.shf rfl, h.fdp rfl, h.ctc rfl, h.exs rfl, h.alm rfl, h.pending⟩

@[simp] theorem addUnits_keeps (slot : Nat) (cls : UnitClass) (items : List Item) (s : State) :
    (addUnits slot cls items s).clock = s.clock ∧ (addUnits slot cls items s).pins = s.pins ∧
    (addUnits slot cls items s).lnk = s.lnk ∧ (addUnits slot cls items s).prf = s.prf ∧
    (addUnits slot cls items s).car = s.car ∧ (addUnits slot cls items s).ptr = s.ptr ∧
    (addUnits slot cls items s).shf = s.shf ∧ (addUnits slot cls items s).fdp = s.fdp ∧
    (addUnits slot cls items s).ctc = s.ctc ∧ (addUnits slot cls items s).exs = s.exs ∧
    (addUnits slot cls items s).alm = s.alm ∧ (addUnits slot cls items s).pending = s.pending :=
  have h := addUnits_frame slot cls items s
  ⟨h.clock, h.pins rfl, h.lnk rfl, h.prf rfl, h.car rfl, h.ptr rfl, h.shf rfl, h.fdp rfl, h.ctc rfl, h.exs rfl, h.alm rfl, h.pending⟩

@[simp] theorem setPlane_keeps (slot k : Nat) (p : Plane) (s : State) :
    (setPlane slot k p s).clock = s.clock ∧ (setPlane slot k p s).pins = s.pins ∧
    (setPlane slot k p s).lnk = s.lnk ∧ (setPlane slot k p s).ord = s.ord ∧ (setPlane slot k p s).prf = s.prf ∧
    (setPlane slot k p s).car = s.car ∧ (setPlane slot k p s).ptr = s.ptr ∧ (setPlane slot k p s).shf = s.shf ∧
    (setPlane slot k p s).fdp = s.fdp ∧ (setPlane slot k p s).ctc = s.ctc ∧ (setPlane slot k p s).exs = s.exs ∧
    (setPlane slot k p s).alm = s.alm ∧ (setPlane slot k p s).pending = s.pending :=
  have h := setPlane_frame slot k p s
  ⟨h.clock, h.pins rfl, h.lnk rfl, h.ord rfl, h.prf rfl, h.car rfl, h.ptr rfl, h.shf rfl, h.fdp rfl, h.ctc rfl, h.exs rfl, h.alm rfl, h.pending⟩

@[simp] theorem removeImage_keeps (slot : Nat) (s : State) :
    (removeImage slot s).clock = s.clock ∧ (removeImage slot s).pins = s.pins ∧
    (removeImage slot s).ord = s.ord ∧ (removeImage slot s).prf = s.prf ∧ (removeImage slot s).car = s.car ∧
    (removeImage slot s).ptr = s.ptr ∧ (removeImage slot s).shf = s.shf ∧ (removeImage slot s).fdp = s.fdp ∧
    (removeImage slot s).ctc = s.ctc ∧ (removeImage slot s).exs = s.exs ∧ (removeImage slot s).alm = s.alm ∧
    (removeImage slot s).pending = s.pending :=
  have h := removeImage_frame slot s
  ⟨h.clock, h.pins rfl, h.ord rfl, h.prf rfl, h.car rfl, h.ptr rfl, h.shf rfl, h.fdp rfl, h.ctc rfl, h.exs rfl, h.alm rfl, h.pending⟩

@[simp] theorem advanceScan_keeps (s : State) :
    (advanceScan s).clock = s.clock ∧ (advanceScan s).pins = s.pins ∧ (advanceScan s).prf = s.prf ∧
    (advanceScan s).car = s.car ∧ (advanceScan s).ptr = s.ptr ∧ (advanceScan s).shf = s.shf ∧
    (advanceScan s).fdp = s.fdp ∧ (advanceScan s).ctc = s.ctc ∧ (advanceScan s).exs = s.exs ∧
    (advanceScan s).alm = s.alm ∧ (advanceScan s).pending = s.pending :=
  have h := advanceScan_frame s
  ⟨h.clock, h.pins rfl, h.prf rfl, h.car rfl, h.ptr rfl, h.shf rfl, h.fdp rfl, h.ctc rfl, h.exs rfl, h.alm rfl, h.pending⟩

@[simp] theorem scanRead_keeps (r : ReadResult) (s : State) :
    (scanRead r s).clock = s.clock ∧ (scanRead r s).pins = s.pins ∧ (scanRead r s).prf = s.prf ∧
    (scanRead r s).car = s.car ∧ (scanRead r s).ptr = s.ptr ∧ (scanRead r s).shf = s.shf ∧
    (scanRead r s).fdp = s.fdp ∧ (scanRead r s).ctc = s.ctc ∧ (scanRead r s).exs = s.exs ∧
    (scanRead r s).pending = s.pending :=
  have h := scanRead_frame r s
  ⟨h.clock, h.pins rfl, h.prf rfl, h.car rfl, h.ptr rfl, h.shf rfl, h.fdp rfl, h.ctc rfl, h.exs rfl, h.pending⟩

@[simp] theorem dropScan_keeps (slot : Nat) (s : State) :
    (dropScan slot s).clock = s.clock ∧ (dropScan slot s).pins = s.pins ∧ (dropScan slot s).lnk = s.lnk ∧
    (dropScan slot s).ord = s.ord ∧ (dropScan slot s).prf = s.prf ∧ (dropScan slot s).car = s.car ∧
    (dropScan slot s).ptr = s.ptr ∧ (dropScan slot s).shf = s.shf ∧ (dropScan slot s).fdp = s.fdp ∧
    (dropScan slot s).ctc = s.ctc ∧ (dropScan slot s).exs = s.exs ∧ (dropScan slot s).alm = s.alm ∧
    (dropScan slot s).pending = s.pending :=
  have h := dropScan_frame slot s
  ⟨h.clock, h.pins rfl, h.lnk rfl, h.ord rfl, h.prf rfl, h.car rfl, h.ptr rfl, h.shf rfl, h.fdp rfl, h.ctc rfl, h.exs rfl, h.alm rfl, h.pending⟩

@[simp] theorem recomputeSpeed_keeps (s : State) :
    (recomputeSpeed s).clock = s.clock ∧ (recomputeSpeed s).pins = s.pins ∧ (recomputeSpeed s).lnk = s.lnk ∧
    (recomputeSpeed s).ord = s.ord ∧ (recomputeSpeed s).ims = s.ims ∧ (recomputeSpeed s).prf = s.prf ∧
    (recomputeSpeed s).car = s.car ∧ (recomputeSpeed s).ptr = s.ptr ∧ (recomputeSpeed s).shf = s.shf ∧
    (recomputeSpeed s).fdp = s.fdp ∧ (recomputeSpeed s).exs = s.exs ∧ (recomputeSpeed s).alm = s.alm ∧
    (recomputeSpeed s).pending = s.pending :=
  have h := recomputeSpeed_frame s
  ⟨h.clock, h.pins rfl, h.lnk rfl, h.ord rfl, h.ims rfl, h.prf rfl, h.car rfl, h.ptr rfl, h.shf rfl, h.fdp rfl, h.exs rfl, h.alm rfl, h.pending⟩

@[simp] theorem superviseZone_keeps (z : Nat) (r : Reading) (s : State) :
    (superviseZone z r s).clock = s.clock ∧ (superviseZone z r s).pins = s.pins ∧
    (superviseZone z r s).ord = s.ord ∧ (superviseZone z r s).ims = s.ims ∧ (superviseZone z r s).prf = s.prf ∧
    (superviseZone z r s).car = s.car ∧ (superviseZone z r s).ptr = s.ptr ∧ (superviseZone z r s).shf = s.shf ∧
    (superviseZone z r s).fdp = s.fdp ∧ (superviseZone z r s).exs = s.exs ∧
    (superviseZone z r s).pending = s.pending :=
  have h := superviseZone_frame z r s
  ⟨h.clock, h.pins rfl, h.ord rfl, h.ims rfl, h.prf rfl, h.car rfl, h.ptr rfl, h.shf rfl, h.fdp rfl, h.exs rfl, h.pending⟩

@[simp] theorem driveZone_keeps (before : State) (z : Nat) (s : State) :
    (driveZone before z s).clock = s.clock ∧ (driveZone before z s).pins = s.pins ∧
    (driveZone before z s).lnk = s.lnk ∧ (driveZone before z s).ord = s.ord ∧
    (driveZone before z s).ims = s.ims ∧ (driveZone before z s).prf = s.prf ∧
    (driveZone before z s).car = s.car ∧ (driveZone before z s).ptr = s.ptr ∧
    (driveZone before z s).shf = s.shf ∧ (driveZone before z s).fdp = s.fdp ∧
    (driveZone before z s).exs = s.exs ∧ (driveZone before z s).alm = s.alm ∧
    (driveZone before z s).pending = s.pending :=
  have h := driveZone_frame before z s
  ⟨h.clock, h.pins rfl, h.lnk rfl, h.ord rfl, h.ims rfl, h.prf rfl, h.car rfl, h.ptr rfl, h.shf rfl, h.fdp rfl, h.exs rfl, h.alm rfl, h.pending⟩

@[simp] theorem accrue_keeps (s : State) :
    (accrue s).clock = s.clock ∧ (accrue s).pins = s.pins ∧ (accrue s).lnk = s.lnk ∧ (accrue s).ord = s.ord ∧
    (accrue s).ims = s.ims ∧ (accrue s).prf = s.prf ∧ (accrue s).ptr = s.ptr ∧ (accrue s).shf = s.shf ∧
    (accrue s).fdp = s.fdp ∧ (accrue s).ctc = s.ctc ∧ (accrue s).exs = s.exs ∧ (accrue s).alm = s.alm ∧
    (accrue s).pending = s.pending :=
  have h := accrue_frame s
  ⟨h.clock, h.pins rfl, h.lnk rfl, h.ord rfl, h.ims rfl, h.prf rfl, h.ptr rfl, h.shf rfl, h.fdp rfl, h.ctc rfl, h.exs rfl, h.alm rfl, h.pending⟩

@[simp] theorem countSample_keeps (s : State) :
    (countSample s).clock = s.clock ∧ (countSample s).pins = s.pins ∧ (countSample s).lnk = s.lnk ∧
    (countSample s).ord = s.ord ∧ (countSample s).ims = s.ims ∧ (countSample s).prf = s.prf ∧
    (countSample s).car = s.car ∧ (countSample s).ptr = s.ptr ∧ (countSample s).shf = s.shf ∧
    (countSample s).fdp = s.fdp ∧ (countSample s).exs = s.exs ∧ (countSample s).alm = s.alm ∧
    (countSample s).pending = s.pending :=
  have h := countSample_frame s
  ⟨h.clock, h.pins rfl, h.lnk rfl, h.ord rfl, h.ims rfl, h.prf rfl, h.car rfl, h.ptr rfl, h.shf rfl, h.fdp rfl, h.exs rfl, h.alm rfl, h.pending⟩

@[simp] theorem retestFluid_keeps (s : State) :
    (retestFluid s).clock = s.clock ∧ (retestFluid s).pins = s.pins ∧ (retestFluid s).ord = s.ord ∧
    (retestFluid s).ims = s.ims ∧ (retestFluid s).prf = s.prf ∧ (retestFluid s).shf = s.shf ∧
    (retestFluid s).fdp = s.fdp ∧ (retestFluid s).ctc = s.ctc ∧ (retestFluid s).exs = s.exs ∧
    (retestFluid s).pending = s.pending :=
  have h := retestFluid_frame s
  ⟨h.clock, h.pins rfl, h.ord rfl, h.ims rfl, h.prf rfl, h.shf rfl, h.fdp rfl, h.ctc rfl, h.exs rfl, h.pending⟩

@[simp] theorem startTraverse_keeps (s : State) :
    (startTraverse s).clock = s.clock ∧ (startTraverse s).pins = s.pins ∧ (startTraverse s).lnk = s.lnk ∧
    (startTraverse s).ord = s.ord ∧ (startTraverse s).ims = s.ims ∧ (startTraverse s).prf = s.prf ∧
    (startTraverse s).car = s.car ∧ (startTraverse s).shf = s.shf ∧ (startTraverse s).fdp = s.fdp ∧
    (startTraverse s).ctc = s.ctc ∧ (startTraverse s).exs = s.exs ∧ (startTraverse s).alm = s.alm ∧
    (startTraverse s).pending = s.pending :=
  have h := startTraverse_frame s
  ⟨h.clock, h.pins rfl, h.lnk rfl, h.ord rfl, h.ims rfl, h.prf rfl, h.car rfl, h.shf rfl, h.fdp rfl, h.ctc rfl, h.exs rfl, h.alm rfl, h.pending⟩

@[simp] theorem openValve_keeps (lane : Nat) (s : State) :
    (openValve lane s).clock = s.clock ∧ (openValve lane s).pins = s.pins ∧ (openValve lane s).lnk = s.lnk ∧
    (openValve lane s).ord = s.ord ∧ (openValve lane s).ims = s.ims ∧ (openValve lane s).prf = s.prf ∧
    (openValve lane s).car = s.car ∧ (openValve lane s).shf = s.shf ∧ (openValve lane s).fdp = s.fdp ∧
    (openValve lane s).ctc = s.ctc ∧ (openValve lane s).exs = s.exs ∧ (openValve lane s).alm = s.alm ∧
    (openValve lane s).pending = s.pending :=
  have h := openValve_frame lane s
  ⟨h.clock, h.pins rfl, h.lnk rfl, h.ord rfl, h.ims rfl, h.prf rfl, h.car rfl, h.shf rfl, h.fdp rfl, h.ctc rfl, h.exs rfl, h.alm rfl, h.pending⟩

@[simp] theorem closeValve_keeps (lane : Nat) (s : State) :
    (closeValve lane s).clock = s.clock ∧ (closeValve lane s).pins = s.pins ∧ (closeValve lane s).lnk = s.lnk ∧
    (closeValve lane s).ord = s.ord ∧ (closeValve lane s).ims = s.ims ∧ (closeValve lane s).prf = s.prf ∧
    (closeValve lane s).car = s.car ∧ (closeValve lane s).shf = s.shf ∧ (closeValve lane s).fdp = s.fdp ∧
    (closeValve lane s).ctc = s.ctc ∧ (closeValve lane s).exs = s.exs ∧ (closeValve lane s).alm = s.alm ∧
    (closeValve lane s).pending = s.pending :=
  have h := closeValve_frame lane s
  ⟨h.clock, h.pins rfl, h.lnk rfl, h.ord rfl, h.ims rfl, h.prf rfl, h.car rfl, h.shf rfl, h.fdp rfl, h.ctc rfl, h.exs rfl, h.alm rfl, h.pending⟩

@[simp] theorem endTraverse_keeps (s : State) :
    (endTraverse s).clock = s.clock ∧ (endTraverse s).pins = s.pins ∧ (endTraverse s).ord = s.ord ∧
    (endTraverse s).ims = s.ims ∧ (endTraverse s).prf = s.prf ∧ (endTraverse s).shf = s.shf ∧
    (endTraverse s).fdp = s.fdp ∧ (endTraverse s).ctc = s.ctc ∧ (endTraverse s).exs = s.exs ∧
    (endTraverse s).alm = s.alm ∧ (endTraverse s).pending = s.pending :=
  have h := endTraverse_frame s
  ⟨h.clock, h.pins rfl, h.ord rfl, h.ims rfl, h.prf rfl, h.shf rfl, h.fdp rfl, h.ctc rfl, h.exs rfl, h.alm rfl, h.pending⟩

@[simp] theorem endRow_keeps (s : State) :
    (endRow s).clock = s.clock ∧ (endRow s).pins = s.pins ∧ (endRow s).ord = s.ord ∧ (endRow s).ims = s.ims ∧
    (endRow s).prf = s.prf ∧ (endRow s).shf = s.shf ∧ (endRow s).fdp = s.fdp ∧ (endRow s).ctc = s.ctc ∧
    (endRow s).exs = s.exs ∧ (endRow s).alm = s.alm ∧ (endRow s).pending = s.pending :=
  have h := endRow_frame s
  ⟨h.clock, h.pins rfl, h.ord rfl, h.ims rfl, h.prf rfl, h.shf rfl, h.fdp rfl, h.ctc rfl, h.exs rfl, h.alm rfl, h.pending⟩

@[simp] theorem parkBar_keeps (s : State) :
    (parkBar s).clock = s.clock ∧ (parkBar s).pins = s.pins ∧ (parkBar s).ord = s.ord ∧
    (parkBar s).ims = s.ims ∧ (parkBar s).prf = s.prf ∧ (parkBar s).shf = s.shf ∧ (parkBar s).fdp = s.fdp ∧
    (parkBar s).ctc = s.ctc ∧ (parkBar s).exs = s.exs ∧ (parkBar s).pending = s.pending :=
  have h := parkBar_frame s
  ⟨h.clock, h.pins rfl, h.ord rfl, h.ims rfl, h.prf rfl, h.shf rfl, h.fdp rfl, h.ctc rfl, h.exs rfl, h.pending⟩

@[simp] theorem sampleFlash_keeps (r : Reading) (s : State) :
    (sampleFlash r s).clock = s.clock ∧ (sampleFlash r s).pins = s.pins ∧ (sampleFlash r s).ord = s.ord ∧
    (sampleFlash r s).ims = s.ims ∧ (sampleFlash r s).prf = s.prf ∧ (sampleFlash r s).shf = s.shf ∧
    (sampleFlash r s).fdp = s.fdp ∧ (sampleFlash r s).ctc = s.ctc ∧ (sampleFlash r s).exs = s.exs ∧
    (sampleFlash r s).pending = s.pending :=
  have h := sampleFlash_frame r s
  ⟨h.clock, h.pins rfl, h.ord rfl, h.ims rfl, h.prf rfl, h.shf rfl, h.fdp rfl, h.ctc rfl, h.exs rfl, h.pending⟩

@[simp] theorem expireFlashWait_keeps (s : State) :
    (expireFlashWait s).clock = s.clock ∧ (expireFlashWait s).pins = s.pins ∧ (expireFlashWait s).ord = s.ord ∧
    (expireFlashWait s).ims = s.ims ∧ (expireFlashWait s).prf = s.prf ∧ (expireFlashWait s).shf = s.shf ∧
    (expireFlashWait s).fdp = s.fdp ∧ (expireFlashWait s).ctc = s.ctc ∧ (expireFlashWait s).exs = s.exs ∧
    (expireFlashWait s).pending = s.pending :=
  have h := expireFlashWait_frame s
  ⟨h.clock, h.pins rfl, h.ord rfl, h.ims rfl, h.prf rfl, h.shf rfl, h.fdp rfl, h.ctc rfl, h.exs rfl, h.pending⟩

@[simp] theorem expireDwell_keeps (s : State) :
    (expireDwell s).clock = s.clock ∧ (expireDwell s).pins = s.pins ∧ (expireDwell s).ord = s.ord ∧
    (expireDwell s).ims = s.ims ∧ (expireDwell s).prf = s.prf ∧ (expireDwell s).shf = s.shf ∧
    (expireDwell s).fdp = s.fdp ∧ (expireDwell s).ctc = s.ctc ∧ (expireDwell s).exs = s.exs ∧
    (expireDwell s).alm = s.alm ∧ (expireDwell s).pending = s.pending :=
  have h := expireDwell_frame s
  ⟨h.clock, h.pins rfl, h.ord rfl, h.ims rfl, h.prf rfl, h.shf rfl, h.fdp rfl, h.ctc rfl, h.exs rfl, h.alm rfl, h.pending⟩

@[simp] theorem completeSpit_keeps (s : State) :
    (completeSpit s).clock = s.clock ∧ (completeSpit s).pins = s.pins ∧ (completeSpit s).lnk = s.lnk ∧
    (completeSpit s).ord = s.ord ∧ (completeSpit s).ims = s.ims ∧ (completeSpit s).prf = s.prf ∧
    (completeSpit s).car = s.car ∧ (completeSpit s).ptr = s.ptr ∧ (completeSpit s).ctc = s.ctc ∧
    (completeSpit s).exs = s.exs ∧ (completeSpit s).alm = s.alm ∧ (completeSpit s).pending = s.pending :=
  have h := completeSpit_frame s
  ⟨h.clock, h.pins rfl, h.lnk rfl, h.ord rfl, h.ims rfl, h.prf rfl, h.car rfl, h.ptr rfl, h.ctc rfl, h.exs rfl, h.alm rfl, h.pending⟩

@[simp] theorem startPrint_keeps (s : State) :
    (startPrint s).clock = s.clock ∧ (startPrint s).pins = s.pins ∧ (startPrint s).lnk = s.lnk ∧
    (startPrint s).ord = s.ord ∧ (startPrint s).prf = s.prf ∧ (startPrint s).car = s.car ∧
    (startPrint s).ptr = s.ptr ∧ (startPrint s).ctc = s.ctc ∧ (startPrint s).exs = s.exs ∧
    (startPrint s).alm = s.alm ∧ (startPrint s).pending = s.pending :=
  have h := startPrint_frame s
  ⟨h.clock, h.pins rfl, h.lnk rfl, h.ord rfl, h.prf rfl, h.car rfl, h.ptr rfl, h.ctc rfl, h.exs rfl, h.alm rfl, h.pending⟩

@[simp] theorem encoderCount_keeps (forward : Bool) (reads : List ReadResult) (s : State) :
    (encoderCount forward reads s).clock = s.clock ∧ (encoderCount forward reads s).pins = s.pins ∧
    (encoderCount forward reads s).prf = s.prf ∧ (encoderCount forward reads s).ptr = s.ptr ∧
    (encoderCount forward reads s).ctc = s.ctc ∧ (encoderCount forward reads s).exs = s.exs ∧
    (encoderCount forward reads s).pending = s.pending :=
  have h := encoderCount_frame forward reads s
  ⟨h.clock, h.pins rfl, h.prf rfl, h.ptr rfl, h.ctc rfl, h.exs rfl, h.pending⟩

@[simp] theorem scaleMarkReport_keeps (reads : List ReadResult) (s : State) :
    (scaleMarkReport reads s).clock = s.clock ∧ (scaleMarkReport reads s).pins = s.pins ∧
    (scaleMarkReport reads s).prf = s.prf ∧ (scaleMarkReport reads s).ptr = s.ptr ∧
    (scaleMarkReport reads s).ctc = s.ctc ∧ (scaleMarkReport reads s).exs = s.exs ∧
    (scaleMarkReport reads s).pending = s.pending :=
  have h := scaleMarkReport_frame reads s
  ⟨h.clock, h.pins rfl, h.prf rfl, h.ptr rfl, h.ctc rfl, h.exs rfl, h.pending⟩

@[simp] theorem homeReport_keeps (s : State) :
    (homeReport s).clock = s.clock ∧ (homeReport s).pins = s.pins ∧ (homeReport s).ord = s.ord ∧
    (homeReport s).prf = s.prf ∧ (homeReport s).ptr = s.ptr ∧ (homeReport s).ctc = s.ctc ∧
    (homeReport s).exs = s.exs ∧ (homeReport s).alm = s.alm ∧ (homeReport s).pending = s.pending :=
  have h := homeReport_frame s
  ⟨h.clock, h.pins rfl, h.ord rfl, h.prf rfl, h.ptr rfl, h.ctc rfl, h.exs rfl, h.alm rfl, h.pending⟩

@[simp] theorem loseSignal_keeps (s : State) :
    (loseSignal s).clock = s.clock ∧ (loseSignal s).pins = s.pins ∧ (loseSignal s).ord = s.ord ∧
    (loseSignal s).prf = s.prf ∧ (loseSignal s).ptr = s.ptr ∧ (loseSignal s).ctc = s.ctc ∧
    (loseSignal s).exs = s.exs ∧ (loseSignal s).pending = s.pending :=
  have h := loseSignal_frame s
  ⟨h.clock, h.pins rfl, h.ord rfl, h.prf rfl, h.ptr rfl, h.ctc rfl, h.exs rfl, h.pending⟩

@[simp] theorem resetShuttle_keeps (s : State) :
    (resetShuttle s).clock = s.clock ∧ (resetShuttle s).pins = s.pins ∧ (resetShuttle s).lnk = s.lnk ∧
    (resetShuttle s).ord = s.ord ∧ (resetShuttle s).ims = s.ims ∧ (resetShuttle s).prf = s.prf ∧
    (resetShuttle s).car = s.car ∧ (resetShuttle s).ptr = s.ptr ∧ (resetShuttle s).fdp = s.fdp ∧
    (resetShuttle s).ctc = s.ctc ∧ (resetShuttle s).exs = s.exs ∧ (resetShuttle s).alm = s.alm ∧
    (resetShuttle s).pending = s.pending :=
  have h := resetShuttle_frame s
  ⟨h.clock, h.pins rfl, h.lnk rfl, h.ord rfl, h.ims rfl, h.prf rfl, h.car rfl, h.ptr rfl, h.fdp rfl, h.ctc rfl, h.exs rfl, h.alm rfl, h.pending⟩

@[simp] theorem testClaims_keeps (s : State) :
    (testClaims s).clock = s.clock ∧ (testClaims s).pins = s.pins ∧ (testClaims s).ord = s.ord ∧
    (testClaims s).ims = s.ims ∧ (testClaims s).prf = s.prf ∧ (testClaims s).ptr = s.ptr ∧
    (testClaims s).shf = s.shf ∧ (testClaims s).fdp = s.fdp ∧ (testClaims s).alm = s.alm ∧
    (testClaims s).pending = s.pending :=
  have h := testClaims_frame s
  ⟨h.clock, h.pins rfl, h.ord rfl, h.ims rfl, h.prf rfl, h.ptr rfl, h.shf rfl, h.fdp rfl, h.alm rfl, h.pending⟩

@[simp] theorem completeTransfer_keeps (s : State) :
    (completeTransfer s).clock = s.clock ∧ (completeTransfer s).pins = s.pins ∧
    (completeTransfer s).ord = s.ord ∧ (completeTransfer s).ims = s.ims ∧ (completeTransfer s).prf = s.prf ∧
    (completeTransfer s).ptr = s.ptr ∧ (completeTransfer s).shf = s.shf ∧ (completeTransfer s).fdp = s.fdp ∧
    (completeTransfer s).exs = s.exs ∧ (completeTransfer s).alm = s.alm ∧
    (completeTransfer s).pending = s.pending :=
  have h := completeTransfer_frame s
  ⟨h.clock, h.pins rfl, h.ord rfl, h.ims rfl, h.prf rfl, h.ptr rfl, h.shf rfl, h.fdp rfl, h.exs rfl, h.alm rfl, h.pending⟩

@[simp] theorem beltCount_keeps (s : State) :
    (beltCount s).clock = s.clock ∧ (beltCount s).pins = s.pins ∧ (beltCount s).prf = s.prf ∧
    (beltCount s).ptr = s.ptr ∧ (beltCount s).shf = s.shf ∧ (beltCount s).fdp = s.fdp ∧
    (beltCount s).pending = s.pending :=
  have h := beltCount_frame s
  ⟨h.clock, h.pins rfl, h.prf rfl, h.ptr rfl, h.shf rfl, h.fdp rfl, h.pending⟩

@[simp] theorem dropRecure_keeps (serial : Nat) (s : State) :
    (dropRecure serial s).clock = s.clock ∧ (dropRecure serial s).pins = s.pins ∧
    (dropRecure serial s).prf = s.prf ∧ (dropRecure serial s).ptr = s.ptr ∧ (dropRecure serial s).shf = s.shf ∧
    (dropRecure serial s).fdp = s.fdp ∧ (dropRecure serial s).alm = s.alm ∧
    (dropRecure serial s).pending = s.pending :=
  have h := dropRecure_frame serial s
  ⟨h.clock, h.pins rfl, h.prf rfl, h.ptr rfl, h.shf rfl, h.fdp rfl, h.alm rfl, h.pending⟩

@[simp] theorem clearBin_keeps (n : Nat) (s : State) :
    (clearBin n s).clock = s.clock ∧ (clearBin n s).pins = s.pins ∧ (clearBin n s).prf = s.prf ∧
    (clearBin n s).car = s.car ∧ (clearBin n s).ptr = s.ptr ∧ (clearBin n s).shf = s.shf ∧
    (clearBin n s).fdp = s.fdp ∧ (clearBin n s).ctc = s.ctc ∧ (clearBin n s).alm = s.alm ∧
    (clearBin n s).pending = s.pending :=
  have h := clearBin_frame n s
  ⟨h.clock, h.pins rfl, h.prf rfl, h.car rfl, h.ptr rfl, h.shf rfl, h.fdp rfl, h.ctc rfl, h.alm rfl, h.pending⟩

@[simp] theorem updateLamp_keeps (s : State) :
    (updateLamp s).clock = s.clock ∧ (updateLamp s).pins = s.pins ∧ (updateLamp s).ord = s.ord ∧
    (updateLamp s).ims = s.ims ∧ (updateLamp s).prf = s.prf ∧ (updateLamp s).ptr = s.ptr ∧
    (updateLamp s).shf = s.shf ∧ (updateLamp s).fdp = s.fdp ∧ (updateLamp s).ctc = s.ctc ∧
    (updateLamp s).exs = s.exs ∧ (updateLamp s).alm = s.alm ∧ (updateLamp s).pending = s.pending :=
  have h := updateLamp_frame s
  ⟨h.clock, h.pins rfl, h.ord rfl, h.ims rfl, h.prf rfl, h.ptr rfl, h.shf rfl, h.fdp rfl, h.ctc rfl, h.exs rfl, h.alm rfl, h.pending⟩

@[simp] theorem enterHalted_keeps (s : State) :
    (enterHalted s).clock = s.clock ∧ (enterHalted s).pins = s.pins ∧ (enterHalted s).ord = s.ord ∧
    (enterHalted s).prf = s.prf ∧ (enterHalted s).exs = s.exs ∧ (enterHalted s).pending = s.pending :=
  have h := enterHalted_frame s
  ⟨h.clock, h.pins rfl, h.ord rfl, h.prf rfl, h.exs rfl, h.pending⟩

@[simp] theorem haltOnset_keeps (i : Nat) (s : State) :
    (haltOnset i s).clock = s.clock ∧ (haltOnset i s).pins = s.pins ∧ (haltOnset i s).ord = s.ord ∧
    (haltOnset i s).prf = s.prf ∧ (haltOnset i s).exs = s.exs ∧ (haltOnset i s).pending = s.pending :=
  have h := haltOnset_frame i s
  ⟨h.clock, h.pins rfl, h.ord rfl, h.prf rfl, h.exs rfl, h.pending⟩

@[simp] theorem stopTest_keeps (s : State) :
    (stopTest s).clock = s.clock ∧ (stopTest s).pins = s.pins ∧ (stopTest s).ord = s.ord ∧
    (stopTest s).ims = s.ims ∧ (stopTest s).prf = s.prf ∧ (stopTest s).shf = s.shf ∧ (stopTest s).fdp = s.fdp ∧
    (stopTest s).exs = s.exs ∧ (stopTest s).alm = s.alm ∧ (stopTest s).pending = s.pending :=
  have h := stopTest_frame s
  ⟨h.clock, h.pins rfl, h.ord rfl, h.ims rfl, h.prf rfl, h.shf rfl, h.fdp rfl, h.exs rfl, h.alm rfl, h.pending⟩

@[simp] theorem placeReported_keeps (s : State) :
    (placeReported s).clock = s.clock ∧ (placeReported s).pins = s.pins ∧ (placeReported s).ord = s.ord ∧
    (placeReported s).ims = s.ims ∧ (placeReported s).prf = s.prf ∧ (placeReported s).shf = s.shf ∧ (placeReported s).fdp = s.fdp ∧
    (placeReported s).exs = s.exs ∧ (placeReported s).alm = s.alm ∧ (placeReported s).pending = s.pending :=
  have h := placeReported_frame s
  ⟨h.clock, h.pins rfl, h.ord rfl, h.ims rfl, h.prf rfl, h.shf rfl, h.fdp rfl, h.exs rfl, h.alm rfl, h.pending⟩

@[simp] theorem enterRunning_keeps (s : State) :
    (enterRunning s).clock = s.clock ∧ (enterRunning s).pins = s.pins ∧ (enterRunning s).ord = s.ord ∧
    (enterRunning s).prf = s.prf ∧ (enterRunning s).fdp = s.fdp ∧ (enterRunning s).exs = s.exs ∧
    (enterRunning s).pending = s.pending :=
  have h := enterRunning_frame s
  ⟨h.clock, h.pins rfl, h.ord rfl, h.prf rfl, h.fdp rfl, h.exs rfl, h.pending⟩

@[simp] theorem enterDraining_keeps (s : State) :
    (enterDraining s).clock = s.clock ∧ (enterDraining s).pins = s.pins ∧ (enterDraining s).ord = s.ord ∧
    (enterDraining s).prf = s.prf ∧ (enterDraining s).fdp = s.fdp ∧ (enterDraining s).exs = s.exs ∧
    (enterDraining s).pending = s.pending :=
  have h := enterDraining_frame s
  ⟨h.clock, h.pins rfl, h.ord rfl, h.prf rfl, h.fdp rfl, h.exs rfl, h.pending⟩

@[simp] theorem tryIndex_keeps (s : State) :
    (tryIndex s).clock = s.clock ∧ (tryIndex s).pins = s.pins ∧ (tryIndex s).lnk = s.lnk ∧
    (tryIndex s).ord = s.ord ∧ (tryIndex s).ims = s.ims ∧ (tryIndex s).prf = s.prf ∧ (tryIndex s).ptr = s.ptr ∧
    (tryIndex s).shf = s.shf ∧ (tryIndex s).fdp = s.fdp ∧ (tryIndex s).ctc = s.ctc ∧ (tryIndex s).exs = s.exs ∧
    (tryIndex s).alm = s.alm ∧ (tryIndex s).pending = s.pending :=
  have h := tryIndex_frame s
  ⟨h.clock, h.pins rfl, h.lnk rfl, h.ord rfl, h.ims rfl, h.prf rfl, h.ptr rfl, h.shf rfl, h.fdp rfl, h.ctc rfl, h.exs rfl, h.alm rfl, h.pending⟩

@[simp] theorem advance_keeps (s : State) :
    (advance s).clock = s.clock ∧ (advance s).pins = s.pins ∧ (advance s).ord = s.ord ∧
    (advance s).prf = s.prf ∧ (advance s).ctc = s.ctc ∧ (advance s).exs = s.exs ∧ (advance s).alm = s.alm ∧
    (advance s).pending = s.pending :=
  have h := advance_frame s
  ⟨h.clock, h.pins rfl, h.ord rfl, h.prf rfl, h.ctc rfl, h.exs rfl, h.alm rfl, h.pending⟩

@[simp] theorem indexSensed_keeps (s : State) :
    (indexSensed s).clock = s.clock ∧ (indexSensed s).pins = s.pins ∧ (indexSensed s).ord = s.ord ∧
    (indexSensed s).prf = s.prf ∧ (indexSensed s).fdp = s.fdp ∧ (indexSensed s).exs = s.exs ∧
    (indexSensed s).pending = s.pending :=
  have h := indexSensed_frame s
  ⟨h.clock, h.pins rfl, h.ord rfl, h.prf rfl, h.fdp rfl, h.exs rfl, h.pending⟩

@[simp] theorem indexExpired_keeps (s : State) :
    (indexExpired s).clock = s.clock ∧ (indexExpired s).pins = s.pins ∧ (indexExpired s).ord = s.ord ∧
    (indexExpired s).prf = s.prf ∧ (indexExpired s).exs = s.exs ∧ (indexExpired s).pending = s.pending :=
  have h := indexExpired_frame s
  ⟨h.clock, h.pins rfl, h.ord rfl, h.prf rfl, h.exs rfl, h.pending⟩

@[simp] theorem pressFoot_keeps (s : State) :
    (pressFoot s).clock = s.clock ∧ (pressFoot s).pins = s.pins ∧ (pressFoot s).ord = s.ord ∧
    (pressFoot s).ims = s.ims ∧ (pressFoot s).prf = s.prf ∧ (pressFoot s).ptr = s.ptr ∧
    (pressFoot s).shf = s.shf ∧ (pressFoot s).fdp = s.fdp ∧ (pressFoot s).ctc = s.ctc ∧
    (pressFoot s).exs = s.exs ∧ (pressFoot s).alm = s.alm ∧ (pressFoot s).pending = s.pending :=
  have h := pressFoot_frame s
  ⟨h.clock, h.pins rfl, h.ord rfl, h.ims rfl, h.prf rfl, h.ptr rfl, h.shf rfl, h.fdp rfl, h.ctc rfl, h.exs rfl, h.alm rfl, h.pending⟩

@[simp] theorem pressSkip_keeps (s : State) :
    (pressSkip s).clock = s.clock ∧ (pressSkip s).pins = s.pins ∧ (pressSkip s).prf = s.prf ∧
    (pressSkip s).shf = s.shf ∧ (pressSkip s).fdp = s.fdp ∧ (pressSkip s).alm = s.alm ∧
    (pressSkip s).pending = s.pending :=
  have h := pressSkip_frame s
  ⟨h.clock, h.pins rfl, h.prf rfl, h.shf rfl, h.fdp rfl, h.alm rfl, h.pending⟩

@[simp] theorem readEstop_keeps (active : Bool) (s : State) :
    (readEstop active s).clock = s.clock ∧ (readEstop active s).ord = s.ord ∧ (readEstop active s).prf = s.prf ∧
    (readEstop active s).exs = s.exs ∧ (readEstop active s).pending = s.pending :=
  have h := readEstop_frame active s
  ⟨h.clock, h.ord rfl, h.prf rfl, h.exs rfl, h.pending⟩

@[simp] theorem judgeGuards_keeps (s : State) :
    (judgeGuards s).clock = s.clock ∧ (judgeGuards s).pins = s.pins ∧ (judgeGuards s).ord = s.ord ∧
    (judgeGuards s).ims = s.ims ∧ (judgeGuards s).prf = s.prf ∧ (judgeGuards s).car = s.car ∧
    (judgeGuards s).ptr = s.ptr ∧ (judgeGuards s).shf = s.shf ∧ (judgeGuards s).fdp = s.fdp ∧
    (judgeGuards s).ctc = s.ctc ∧ (judgeGuards s).exs = s.exs ∧ (judgeGuards s).pending = s.pending :=
  have h := judgeGuards_frame s
  ⟨h.clock, h.pins rfl, h.ord rfl, h.ims rfl, h.prf rfl, h.car rfl, h.ptr rfl, h.shf rfl, h.fdp rfl, h.ctc rfl, h.exs rfl, h.pending⟩

@[simp] theorem readGuard_keeps (g : Nat) (high : Bool) (s : State) :
    (readGuard g high s).clock = s.clock ∧ (readGuard g high s).ord = s.ord ∧ (readGuard g high s).ims = s.ims ∧
    (readGuard g high s).prf = s.prf ∧ (readGuard g high s).car = s.car ∧ (readGuard g high s).ptr = s.ptr ∧
    (readGuard g high s).shf = s.shf ∧ (readGuard g high s).fdp = s.fdp ∧ (readGuard g high s).ctc = s.ctc ∧
    (readGuard g high s).exs = s.exs ∧ (readGuard g high s).pending = s.pending :=
  have h := readGuard_frame g high s
  ⟨h.clock, h.ord rfl, h.ims rfl, h.prf rfl, h.car rfl, h.ptr rfl, h.shf rfl, h.fdp rfl, h.ctc rfl, h.exs rfl, h.pending⟩

@[simp] theorem firstReading_keeps (s : State) :
    (firstReading s).clock = s.clock ∧ (firstReading s).ord = s.ord ∧ (firstReading s).prf = s.prf ∧
    (firstReading s).exs = s.exs ∧ (firstReading s).pending = s.pending :=
  have h := firstReading_frame s
  ⟨h.clock, h.ord rfl, h.prf rfl, h.exs rfl, h.pending⟩

@[simp] theorem takeChar_keeps (l : ScanLine) (c : Byte) (s : State) :
    (takeChar l c s).clock = s.clock ∧ (takeChar l c s).pins = s.pins ∧ (takeChar l c s).prf = s.prf ∧
    (takeChar l c s).ptr = s.ptr ∧ (takeChar l c s).shf = s.shf ∧ (takeChar l c s).fdp = s.fdp ∧
    (takeChar l c s).pending = s.pending :=
  have h := takeChar_frame l c s
  ⟨h.clock, h.pins rfl, h.prf rfl, h.ptr rfl, h.shf rfl, h.fdp rfl, h.pending⟩

@[simp] theorem framingFault_keeps (l : ScanLine) (s : State) :
    (framingFault l s).clock = s.clock ∧ (framingFault l s).pins = s.pins ∧ (framingFault l s).ord = s.ord ∧
    (framingFault l s).ims = s.ims ∧ (framingFault l s).prf = s.prf ∧ (framingFault l s).car = s.car ∧
    (framingFault l s).ptr = s.ptr ∧ (framingFault l s).shf = s.shf ∧ (framingFault l s).fdp = s.fdp ∧
    (framingFault l s).ctc = s.ctc ∧ (framingFault l s).exs = s.exs ∧ (framingFault l s).pending = s.pending :=
  have h := framingFault_frame l s
  ⟨h.clock, h.pins rfl, h.ord rfl, h.ims rfl, h.prf rfl, h.car rfl, h.ptr rfl, h.shf rfl, h.fdp rfl, h.ctc rfl, h.exs rfl, h.pending⟩

@[simp] theorem acknowledgeAt_keeps (i : Nat) (s : State) :
    (acknowledgeAt i s).clock = s.clock ∧ (acknowledgeAt i s).pins = s.pins ∧ (acknowledgeAt i s).ord = s.ord ∧
    (acknowledgeAt i s).ims = s.ims ∧ (acknowledgeAt i s).prf = s.prf ∧ (acknowledgeAt i s).fdp = s.fdp ∧
    (acknowledgeAt i s).ctc = s.ctc ∧ (acknowledgeAt i s).exs = s.exs ∧ (acknowledgeAt i s).pending = s.pending :=
  have h := acknowledgeAt_frame i s
  ⟨h.clock, h.pins rfl, h.ord rfl, h.ims rfl, h.prf rfl, h.fdp rfl, h.ctc rfl, h.exs rfl, h.pending⟩

@[simp] theorem stepDrill_keeps (s : State) :
    (stepDrill s).clock = s.clock ∧ (stepDrill s).pins = s.pins ∧ (stepDrill s).ord = s.ord ∧
    (stepDrill s).ims = s.ims ∧ (stepDrill s).prf = s.prf ∧ (stepDrill s).car = s.car ∧
    (stepDrill s).ptr = s.ptr ∧ (stepDrill s).shf = s.shf ∧ (stepDrill s).fdp = s.fdp ∧
    (stepDrill s).ctc = s.ctc ∧ (stepDrill s).exs = s.exs ∧ (stepDrill s).pending = s.pending :=
  have h := stepDrill_frame s
  ⟨h.clock, h.pins rfl, h.ord rfl, h.ims rfl, h.prf rfl, h.car rfl, h.ptr rfl, h.shf rfl, h.fdp rfl, h.ctc rfl, h.exs rfl, h.pending⟩

@[simp] theorem transmit_keeps (s : State) :
    (transmit s).clock = s.clock ∧ (transmit s).pins = s.pins ∧ (transmit s).ord = s.ord ∧
    (transmit s).ims = s.ims ∧ (transmit s).prf = s.prf ∧ (transmit s).car = s.car ∧ (transmit s).ptr = s.ptr ∧
    (transmit s).shf = s.shf ∧ (transmit s).fdp = s.fdp ∧ (transmit s).ctc = s.ctc ∧ (transmit s).exs = s.exs ∧
    (transmit s).alm = s.alm ∧ (transmit s).pending = s.pending :=
  have h := transmit_frame s
  ⟨h.clock, h.pins rfl, h.ord rfl, h.ims rfl, h.prf rfl, h.car rfl, h.ptr rfl, h.shf rfl, h.fdp rfl, h.ctc rfl, h.exs rfl, h.alm rfl, h.pending⟩

@[simp] theorem settle_keeps (s : State) :
    (settle s).clock = s.clock ∧ (settle s).pins = s.pins ∧ (settle s).ord = s.ord ∧ (settle s).prf = s.prf ∧
    (settle s).ctc = s.ctc ∧ (settle s).exs = s.exs ∧ (settle s).alm = s.alm ∧ (settle s).pending = s.pending :=
  have h := settle_frame s
  ⟨h.clock, h.pins rfl, h.ord rfl, h.prf rfl, h.ctc rfl, h.exs rfl, h.alm rfl, h.pending⟩

@[simp] theorem sendingReport_keeps (k : Sending) (s : State) :
    (sendingReport k s).clock = s.clock ∧ (sendingReport k s).pins = s.pins ∧ (sendingReport k s).lnk = s.lnk ∧
    (sendingReport k s).prf = s.prf ∧ (sendingReport k s).ptr = s.ptr ∧ (sendingReport k s).shf = s.shf ∧
    (sendingReport k s).fdp = s.fdp ∧ (sendingReport k s).ctc = s.ctc ∧ (sendingReport k s).exs = s.exs ∧
    (sendingReport k s).alm = s.alm ∧ (sendingReport k s).pending = s.pending :=
  have h := sendingReport_frame k s
  ⟨h.clock, h.pins rfl, h.lnk rfl, h.prf rfl, h.ptr rfl, h.shf rfl, h.fdp rfl, h.ctc rfl, h.exs rfl, h.alm rfl, h.pending⟩

@[simp] theorem noticeRead_keeps (s : State) :
    (noticeRead s).clock = s.clock ∧ (noticeRead s).pins = s.pins ∧ (noticeRead s).prf = s.prf ∧
    (noticeRead s).ptr = s.ptr ∧ (noticeRead s).shf = s.shf ∧ (noticeRead s).fdp = s.fdp ∧
    (noticeRead s).ctc = s.ctc ∧ (noticeRead s).exs = s.exs ∧ (noticeRead s).alm = s.alm ∧
    (noticeRead s).pending = s.pending :=
  have h := noticeRead_frame s
  ⟨h.clock, h.pins rfl, h.prf rfl, h.ptr rfl, h.shf rfl, h.fdp rfl, h.ctc rfl, h.exs rfl, h.alm rfl, h.pending⟩

@[simp] theorem dropLink_keeps (s : State) :
    (dropLink s).clock = s.clock ∧ (dropLink s).pins = s.pins ∧ (dropLink s).ord = s.ord ∧
    (dropLink s).ims = s.ims ∧ (dropLink s).prf = s.prf ∧ (dropLink s).car = s.car ∧ (dropLink s).ptr = s.ptr ∧
    (dropLink s).shf = s.shf ∧ (dropLink s).fdp = s.fdp ∧ (dropLink s).ctc = s.ctc ∧ (dropLink s).exs = s.exs ∧
    (dropLink s).alm = s.alm ∧ (dropLink s).pending = s.pending :=
  have h := dropLink_frame s
  ⟨h.clock, h.pins rfl, h.ord rfl, h.ims rfl, h.prf rfl, h.car rfl, h.ptr rfl, h.shf rfl, h.fdp rfl, h.ctc rfl, h.exs rfl, h.alm rfl, h.pending⟩

@[simp] theorem placeReply_keeps (f : Frame) (s : State) :
    (placeReply f s).clock = s.clock ∧ (placeReply f s).pins = s.pins ∧ (placeReply f s).ord = s.ord ∧
    (placeReply f s).ims = s.ims ∧ (placeReply f s).prf = s.prf ∧ (placeReply f s).car = s.car ∧
    (placeReply f s).ptr = s.ptr ∧ (placeReply f s).shf = s.shf ∧ (placeReply f s).fdp = s.fdp ∧
    (placeReply f s).ctc = s.ctc ∧ (placeReply f s).exs = s.exs ∧ (placeReply f s).alm = s.alm ∧
    (placeReply f s).pending = s.pending :=
  have h := placeReply_frame f s
  ⟨h.clock, h.pins rfl, h.ord rfl, h.ims rfl, h.prf rfl, h.car rfl, h.ptr rfl, h.shf rfl, h.fdp rfl, h.ctc rfl, h.exs rfl, h.alm rfl, h.pending⟩

@[simp] theorem clearAll_keeps (s : State) :
    (clearAll s).clock = s.clock ∧ (clearAll s).pins = s.pins ∧ (clearAll s).prf = s.prf ∧
    (clearAll s).pending = s.pending :=
  have h := clearAll_frame s
  ⟨h.clock, h.pins rfl, h.prf rfl, h.pending⟩

@[simp] theorem decideReset_keeps (s : State) :
    (decideReset s).state.clock = s.clock ∧ (decideReset s).state.prf = s.prf ∧
    (decideReset s).state.pending = s.pending :=
  have h := decideReset_frame s
  ⟨h.clock, h.prf rfl, h.pending⟩

@[simp] theorem storeSettings_keeps (l : LineSettings) (s : State) :
    (storeSettings l s).clock = s.clock ∧ (storeSettings l s).pins = s.pins ∧ (storeSettings l s).ord = s.ord ∧
    (storeSettings l s).ctc = s.ctc ∧ (storeSettings l s).exs = s.exs ∧ (storeSettings l s).pending = s.pending :=
  have h := storeSettings_frame l s
  ⟨h.clock, h.pins rfl, h.ord rfl, h.ctc rfl, h.exs rfl, h.pending⟩

@[simp] theorem decideConfig_keeps (key : Bool) (es : List SettingEntry) (s : State) :
    (decideConfig key es s).state.clock = s.clock ∧ (decideConfig key es s).state.ord = s.ord ∧
    (decideConfig key es s).state.ctc = s.ctc ∧ (decideConfig key es s).state.exs = s.exs ∧
    (decideConfig key es s).state.pending = s.pending :=
  have h := decideConfig_frame key es s
  ⟨h.clock, h.ord rfl, h.ctc rfl, h.exs rfl, h.pending⟩

@[simp] theorem decideProfile_keeps (key : Bool) (id : Nat) (b : ProfileBody) (s : State) :
    (decideProfile key id b s).state.clock = s.clock ∧ (decideProfile key id b s).state.lnk = s.lnk ∧
    (decideProfile key id b s).state.ord = s.ord ∧ (decideProfile key id b s).state.ims = s.ims ∧
    (decideProfile key id b s).state.car = s.car ∧ (decideProfile key id b s).state.ptr = s.ptr ∧
    (decideProfile key id b s).state.shf = s.shf ∧ (decideProfile key id b s).state.fdp = s.fdp ∧
    (decideProfile key id b s).state.ctc = s.ctc ∧ (decideProfile key id b s).state.exs = s.exs ∧
    (decideProfile key id b s).state.alm = s.alm ∧ (decideProfile key id b s).state.pending = s.pending :=
  have h := decideProfile_frame key id b s
  ⟨h.clock, h.lnk rfl, h.ord rfl, h.ims rfl, h.car rfl, h.ptr rfl, h.shf rfl, h.fdp rfl, h.ctc rfl, h.exs rfl, h.alm rfl, h.pending⟩

@[simp] theorem decideProfileGet_keeps (id : Nat) (s : State) :
    (decideProfileGet id s).state.clock = s.clock ∧ (decideProfileGet id s).state.pins = s.pins ∧
    (decideProfileGet id s).state.lnk = s.lnk ∧ (decideProfileGet id s).state.ord = s.ord ∧
    (decideProfileGet id s).state.ims = s.ims ∧ (decideProfileGet id s).state.prf = s.prf ∧
    (decideProfileGet id s).state.car = s.car ∧ (decideProfileGet id s).state.ptr = s.ptr ∧
    (decideProfileGet id s).state.shf = s.shf ∧ (decideProfileGet id s).state.fdp = s.fdp ∧
    (decideProfileGet id s).state.ctc = s.ctc ∧ (decideProfileGet id s).state.exs = s.exs ∧
    (decideProfileGet id s).state.alm = s.alm ∧ (decideProfileGet id s).state.pending = s.pending :=
  have h := decideProfileGet_frame id s
  ⟨h.clock, h.pins rfl, h.lnk rfl, h.ord rfl, h.ims rfl, h.prf rfl, h.car rfl, h.ptr rfl, h.shf rfl, h.fdp rfl, h.ctc rfl, h.exs rfl, h.alm rfl, h.pending⟩

@[simp] theorem decideCure_keeps (b : CureBody) (s : State) :
    (decideCure b s).state.clock = s.clock ∧ (decideCure b s).state.pins = s.pins ∧
    (decideCure b s).state.lnk = s.lnk ∧ (decideCure b s).state.ord = s.ord ∧
    (decideCure b s).state.ims = s.ims ∧ (decideCure b s).state.car = s.car ∧
    (decideCure b s).state.ptr = s.ptr ∧ (decideCure b s).state.shf = s.shf ∧
    (decideCure b s).state.fdp = s.fdp ∧ (decideCure b s).state.exs = s.exs ∧
    (decideCure b s).state.alm = s.alm ∧ (decideCure b s).state.pending = s.pending :=
  have h := decideCure_frame b s
  ⟨h.clock, h.pins rfl, h.lnk rfl, h.ord rfl, h.ims rfl, h.car rfl, h.ptr rfl, h.shf rfl, h.fdp rfl, h.exs rfl, h.alm rfl, h.pending⟩

@[simp] theorem decideSpit_keeps (b : SpitBody) (s : State) :
    (decideSpit b s).state.clock = s.clock ∧ (decideSpit b s).state.pins = s.pins ∧
    (decideSpit b s).state.lnk = s.lnk ∧ (decideSpit b s).state.ord = s.ord ∧
    (decideSpit b s).state.ims = s.ims ∧ (decideSpit b s).state.car = s.car ∧
    (decideSpit b s).state.ptr = s.ptr ∧ (decideSpit b s).state.shf = s.shf ∧
    (decideSpit b s).state.ctc = s.ctc ∧ (decideSpit b s).state.exs = s.exs ∧
    (decideSpit b s).state.alm = s.alm ∧ (decideSpit b s).state.pending = s.pending :=
  have h := decideSpit_frame b s
  ⟨h.clock, h.pins rfl, h.lnk rfl, h.ord rfl, h.ims rfl, h.car rfl, h.ptr rfl, h.shf rfl, h.ctc rfl, h.exs rfl, h.alm rfl, h.pending⟩

@[simp] theorem decideNozzleSet_keeps (es : List NozzleEntry) (s : State) :
    (decideNozzleSet es s).state.clock = s.clock ∧ (decideNozzleSet es s).state.pins = s.pins ∧
    (decideNozzleSet es s).state.lnk = s.lnk ∧ (decideNozzleSet es s).state.ord = s.ord ∧
    (decideNozzleSet es s).state.ims = s.ims ∧ (decideNozzleSet es s).state.prf = s.prf ∧
    (decideNozzleSet es s).state.car = s.car ∧ (decideNozzleSet es s).state.ptr = s.ptr ∧
    (decideNozzleSet es s).state.shf = s.shf ∧ (decideNozzleSet es s).state.ctc = s.ctc ∧
    (decideNozzleSet es s).state.exs = s.exs ∧ (decideNozzleSet es s).state.alm = s.alm ∧
    (decideNozzleSet es s).state.pending = s.pending :=
  have h := decideNozzleSet_frame es s
  ⟨h.clock, h.pins rfl, h.lnk rfl, h.ord rfl, h.ims rfl, h.prf rfl, h.car rfl, h.ptr rfl, h.shf rfl, h.ctc rfl, h.exs rfl, h.alm rfl, h.pending⟩

@[simp] theorem decideNozzleGet_keeps (c r : Nat) (s : State) :
    (decideNozzleGet c r s).state.clock = s.clock ∧ (decideNozzleGet c r s).state.pins = s.pins ∧
    (decideNozzleGet c r s).state.lnk = s.lnk ∧ (decideNozzleGet c r s).state.ord = s.ord ∧
    (decideNozzleGet c r s).state.ims = s.ims ∧ (decideNozzleGet c r s).state.prf = s.prf ∧
    (decideNozzleGet c r s).state.car = s.car ∧ (decideNozzleGet c r s).state.ptr = s.ptr ∧
    (decideNozzleGet c r s).state.shf = s.shf ∧ (decideNozzleGet c r s).state.fdp = s.fdp ∧
    (decideNozzleGet c r s).state.ctc = s.ctc ∧ (decideNozzleGet c r s).state.exs = s.exs ∧
    (decideNozzleGet c r s).state.alm = s.alm ∧ (decideNozzleGet c r s).state.pending = s.pending :=
  have h := decideNozzleGet_frame c r s
  ⟨h.clock, h.pins rfl, h.lnk rfl, h.ord rfl, h.ims rfl, h.prf rfl, h.car rfl, h.ptr rfl, h.shf rfl, h.fdp rfl, h.ctc rfl, h.exs rfl, h.alm rfl, h.pending⟩

@[simp] theorem decideOpen_keeps (id w h x0 y0 channels rush : Nat) (s : State) :
    (decideOpen id w h x0 y0 channels rush s).state.clock = s.clock ∧
    (decideOpen id w h x0 y0 channels rush s).state.pins = s.pins ∧
    (decideOpen id w h x0 y0 channels rush s).state.ord = s.ord ∧
    (decideOpen id w h x0 y0 channels rush s).state.prf = s.prf ∧
    (decideOpen id w h x0 y0 channels rush s).state.car = s.car ∧
    (decideOpen id w h x0 y0 channels rush s).state.ptr = s.ptr ∧
    (decideOpen id w h x0 y0 channels rush s).state.shf = s.shf ∧
    (decideOpen id w h x0 y0 channels rush s).state.fdp = s.fdp ∧
    (decideOpen id w h x0 y0 channels rush s).state.ctc = s.ctc ∧
    (decideOpen id w h x0 y0 channels rush s).state.exs = s.exs ∧
    (decideOpen id w h x0 y0 channels rush s).state.alm = s.alm ∧
    (decideOpen id w h x0 y0 channels rush s).state.pending = s.pending :=
  have h := decideOpen_frame id w h x0 y0 channels rush s
  ⟨h.clock, h.pins rfl, h.ord rfl, h.prf rfl, h.car rfl, h.ptr rfl, h.shf rfl, h.fdp rfl, h.ctc rfl, h.exs rfl, h.alm rfl, h.pending⟩

@[simp] theorem writePlane_keeps (slot k page : Nat) (bytes : List Byte) (s : State) :
    (writePlane slot k page bytes s).clock = s.clock ∧ (writePlane slot k page bytes s).pins = s.pins ∧
    (writePlane slot k page bytes s).lnk = s.lnk ∧ (writePlane slot k page bytes s).ord = s.ord ∧
    (writePlane slot k page bytes s).prf = s.prf ∧ (writePlane slot k page bytes s).car = s.car ∧
    (writePlane slot k page bytes s).ptr = s.ptr ∧ (writePlane slot k page bytes s).shf = s.shf ∧
    (writePlane slot k page bytes s).fdp = s.fdp ∧ (writePlane slot k page bytes s).ctc = s.ctc ∧
    (writePlane slot k page bytes s).exs = s.exs ∧ (writePlane slot k page bytes s).alm = s.alm ∧
    (writePlane slot k page bytes s).pending = s.pending :=
  have h := writePlane_frame slot k page bytes s
  ⟨h.clock, h.pins rfl, h.lnk rfl, h.ord rfl, h.prf rfl, h.car rfl, h.ptr rfl, h.shf rfl, h.fdp rfl, h.ctc rfl, h.exs rfl, h.alm rfl, h.pending⟩

@[simp] theorem decideBand_keeps (ch b encoding : Nat) (data : List Byte) (s : State) :
    (decideBand ch b encoding data s).state.clock = s.clock ∧
    (decideBand ch b encoding data s).state.pins = s.pins ∧
    (decideBand ch b encoding data s).state.lnk = s.lnk ∧ (decideBand ch b encoding data s).state.ord = s.ord ∧
    (decideBand ch b encoding data s).state.prf = s.prf ∧ (decideBand ch b encoding data s).state.car = s.car ∧
    (decideBand ch b encoding data s).state.ptr = s.ptr ∧ (decideBand ch b encoding data s).state.shf = s.shf ∧
    (decideBand ch b encoding data s).state.fdp = s.fdp ∧ (decideBand ch b encoding data s).state.ctc = s.ctc ∧
    (decideBand ch b encoding data s).state.exs = s.exs ∧ (decideBand ch b encoding data s).state.alm = s.alm ∧
    (decideBand ch b encoding data s).state.pending = s.pending :=
  have h := decideBand_frame ch b encoding data s
  ⟨h.clock, h.pins rfl, h.lnk rfl, h.ord rfl, h.prf rfl, h.car rfl, h.ptr rfl, h.shf rfl, h.fdp rfl, h.ctc rfl, h.exs rfl, h.alm rfl, h.pending⟩

@[simp] theorem decideClose_keeps (s : State) :
    (decideClose s).state.clock = s.clock ∧ (decideClose s).state.pins = s.pins ∧
    (decideClose s).state.prf = s.prf ∧ (decideClose s).state.car = s.car ∧ (decideClose s).state.ptr = s.ptr ∧
    (decideClose s).state.shf = s.shf ∧ (decideClose s).state.fdp = s.fdp ∧ (decideClose s).state.ctc = s.ctc ∧
    (decideClose s).state.exs = s.exs ∧ (decideClose s).state.alm = s.alm ∧
    (decideClose s).state.pending = s.pending :=
  have h := decideClose_frame s
  ⟨h.clock, h.pins rfl, h.prf rfl, h.car rfl, h.ptr rfl, h.shf rfl, h.fdp rfl, h.ctc rfl, h.exs rfl, h.alm rfl, h.pending⟩

@[simp] theorem decideAbort_keeps (s : State) :
    (decideAbort s).state.clock = s.clock ∧ (decideAbort s).state.pins = s.pins ∧
    (decideAbort s).state.ord = s.ord ∧ (decideAbort s).state.prf = s.prf ∧ (decideAbort s).state.car = s.car ∧
    (decideAbort s).state.ptr = s.ptr ∧ (decideAbort s).state.shf = s.shf ∧ (decideAbort s).state.fdp = s.fdp ∧
    (decideAbort s).state.ctc = s.ctc ∧ (decideAbort s).state.exs = s.exs ∧ (decideAbort s).state.alm = s.alm ∧
    (decideAbort s).state.pending = s.pending :=
  have h := decideAbort_frame s
  ⟨h.clock, h.pins rfl, h.ord rfl, h.prf rfl, h.car rfl, h.ptr rfl, h.shf rfl, h.fdp rfl, h.ctc rfl, h.exs rfl, h.alm rfl, h.pending⟩

@[simp] theorem markImageGone_keeps (slot id : Nat) (s : State) :
    (markImageGone slot id s).clock = s.clock ∧ (markImageGone slot id s).pins = s.pins ∧
    (markImageGone slot id s).lnk = s.lnk ∧ (markImageGone slot id s).ord = s.ord ∧
    (markImageGone slot id s).prf = s.prf ∧ (markImageGone slot id s).ptr = s.ptr ∧
    (markImageGone slot id s).shf = s.shf ∧ (markImageGone slot id s).fdp = s.fdp ∧
    (markImageGone slot id s).ctc = s.ctc ∧ (markImageGone slot id s).exs = s.exs ∧
    (markImageGone slot id s).alm = s.alm ∧ (markImageGone slot id s).pending = s.pending :=
  have h := markImageGone_frame slot id s
  ⟨h.clock, h.pins rfl, h.lnk rfl, h.ord rfl, h.prf rfl, h.ptr rfl, h.shf rfl, h.fdp rfl, h.ctc rfl, h.exs rfl, h.alm rfl, h.pending⟩

@[simp] theorem decideDelete_keeps (id : Nat) (s : State) :
    (decideDelete id s).state.clock = s.clock ∧ (decideDelete id s).state.pins = s.pins ∧
    (decideDelete id s).state.prf = s.prf ∧ (decideDelete id s).state.ptr = s.ptr ∧
    (decideDelete id s).state.shf = s.shf ∧ (decideDelete id s).state.fdp = s.fdp ∧
    (decideDelete id s).state.ctc = s.ctc ∧ (decideDelete id s).state.exs = s.exs ∧
    (decideDelete id s).state.alm = s.alm ∧ (decideDelete id s).state.pending = s.pending :=
  have h := decideDelete_frame id s
  ⟨h.clock, h.pins rfl, h.prf rfl, h.ptr rfl, h.shf rfl, h.fdp rfl, h.ctc rfl, h.exs rfl, h.alm rfl, h.pending⟩

@[simp] theorem decideImageGet_keeps (id : Nat) (s : State) :
    (decideImageGet id s).state.clock = s.clock ∧ (decideImageGet id s).state.pins = s.pins ∧
    (decideImageGet id s).state.lnk = s.lnk ∧ (decideImageGet id s).state.ord = s.ord ∧
    (decideImageGet id s).state.ims = s.ims ∧ (decideImageGet id s).state.prf = s.prf ∧
    (decideImageGet id s).state.car = s.car ∧ (decideImageGet id s).state.ptr = s.ptr ∧
    (decideImageGet id s).state.shf = s.shf ∧ (decideImageGet id s).state.fdp = s.fdp ∧
    (decideImageGet id s).state.ctc = s.ctc ∧ (decideImageGet id s).state.exs = s.exs ∧
    (decideImageGet id s).state.alm = s.alm ∧ (decideImageGet id s).state.pending = s.pending :=
  have h := decideImageGet_frame id s
  ⟨h.clock, h.pins rfl, h.lnk rfl, h.ord rfl, h.ims rfl, h.prf rfl, h.car rfl, h.ptr rfl, h.shf rfl, h.fdp rfl, h.ctc rfl, h.exs rfl, h.alm rfl, h.pending⟩

@[simp] theorem enterOrder_keeps (slot id : Nat) (p : Priority) (items : List Item) (s : State) :
    (enterOrder slot id p items s).clock = s.clock ∧ (enterOrder slot id p items s).pins = s.pins ∧
    (enterOrder slot id p items s).prf = s.prf ∧ (enterOrder slot id p items s).car = s.car ∧
    (enterOrder slot id p items s).ptr = s.ptr ∧ (enterOrder slot id p items s).shf = s.shf ∧
    (enterOrder slot id p items s).fdp = s.fdp ∧ (enterOrder slot id p items s).ctc = s.ctc ∧
    (enterOrder slot id p items s).exs = s.exs ∧ (enterOrder slot id p items s).alm = s.alm ∧
    (enterOrder slot id p items s).pending = s.pending :=
  have h := enterOrder_frame slot id p items s
  ⟨h.clock, h.pins rfl, h.prf rfl, h.car rfl, h.ptr rfl, h.shf rfl, h.fdp rfl, h.ctc rfl, h.exs rfl, h.alm rfl, h.pending⟩

@[simp] theorem decideAdd_keeps (id priority : Nat) (items : List ItemBody) (s : State) :
    (decideAdd id priority items s).state.clock = s.clock ∧
    (decideAdd id priority items s).state.pins = s.pins ∧ (decideAdd id priority items s).state.prf = s.prf ∧
    (decideAdd id priority items s).state.car = s.car ∧ (decideAdd id priority items s).state.ptr = s.ptr ∧
    (decideAdd id priority items s).state.shf = s.shf ∧ (decideAdd id priority items s).state.fdp = s.fdp ∧
    (decideAdd id priority items s).state.ctc = s.ctc ∧ (decideAdd id priority items s).state.exs = s.exs ∧
    (decideAdd id priority items s).state.alm = s.alm ∧
    (decideAdd id priority items s).state.pending = s.pending :=
  have h := decideAdd_frame id priority items s
  ⟨h.clock, h.pins rfl, h.prf rfl, h.car rfl, h.ptr rfl, h.shf rfl, h.fdp rfl, h.ctc rfl, h.exs rfl, h.alm rfl, h.pending⟩

@[simp] theorem rushUnits_keeps (slot : Nat) (s : State) :
    (rushUnits slot s).clock = s.clock ∧ (rushUnits slot s).pins = s.pins ∧ (rushUnits slot s).lnk = s.lnk ∧
    (rushUnits slot s).ims = s.ims ∧ (rushUnits slot s).prf = s.prf ∧ (rushUnits slot s).car = s.car ∧
    (rushUnits slot s).ptr = s.ptr ∧ (rushUnits slot s).shf = s.shf ∧ (rushUnits slot s).fdp = s.fdp ∧
    (rushUnits slot s).ctc = s.ctc ∧ (rushUnits slot s).exs = s.exs ∧ (rushUnits slot s).alm = s.alm ∧
    (rushUnits slot s).pending = s.pending :=
  have h := rushUnits_frame slot s
  ⟨h.clock, h.pins rfl, h.lnk rfl, h.ims rfl, h.prf rfl, h.car rfl, h.ptr rfl, h.shf rfl, h.fdp rfl, h.ctc rfl, h.exs rfl, h.alm rfl, h.pending⟩

@[simp] theorem decideRush_keeps (id : Nat) (s : State) :
    (decideRush id s).state.clock = s.clock ∧ (decideRush id s).state.pins = s.pins ∧
    (decideRush id s).state.ims = s.ims ∧ (decideRush id s).state.prf = s.prf ∧
    (decideRush id s).state.car = s.car ∧ (decideRush id s).state.ptr = s.ptr ∧
    (decideRush id s).state.shf = s.shf ∧ (decideRush id s).state.fdp = s.fdp ∧
    (decideRush id s).state.ctc = s.ctc ∧ (decideRush id s).state.exs = s.exs ∧
    (decideRush id s).state.alm = s.alm ∧ (decideRush id s).state.pending = s.pending :=
  have h := decideRush_frame id s
  ⟨h.clock, h.pins rfl, h.ims rfl, h.prf rfl, h.car rfl, h.ptr rfl, h.shf rfl, h.fdp rfl, h.ctc rfl, h.exs rfl, h.alm rfl, h.pending⟩

@[simp] theorem removeWaiting_keeps (slot : Nat) (s : State) :
    (removeWaiting slot s).clock = s.clock ∧ (removeWaiting slot s).pins = s.pins ∧
    (removeWaiting slot s).prf = s.prf ∧ (removeWaiting slot s).car = s.car ∧
    (removeWaiting slot s).ptr = s.ptr ∧ (removeWaiting slot s).shf = s.shf ∧
    (removeWaiting slot s).fdp = s.fdp ∧ (removeWaiting slot s).ctc = s.ctc ∧
    (removeWaiting slot s).exs = s.exs ∧ (removeWaiting slot s).alm = s.alm ∧
    (removeWaiting slot s).pending = s.pending :=
  have h := removeWaiting_frame slot s
  ⟨h.clock, h.pins rfl, h.prf rfl, h.car rfl, h.ptr rfl, h.shf rfl, h.fdp rfl, h.ctc rfl, h.exs rfl, h.alm rfl, h.pending⟩

@[simp] theorem decideCancel_keeps (id : Nat) (s : State) :
    (decideCancel id s).state.clock = s.clock ∧ (decideCancel id s).state.pins = s.pins ∧
    (decideCancel id s).state.prf = s.prf ∧ (decideCancel id s).state.car = s.car ∧
    (decideCancel id s).state.ptr = s.ptr ∧ (decideCancel id s).state.shf = s.shf ∧
    (decideCancel id s).state.fdp = s.fdp ∧ (decideCancel id s).state.ctc = s.ctc ∧
    (decideCancel id s).state.alm = s.alm ∧ (decideCancel id s).state.pending = s.pending :=
  have h := decideCancel_frame id s
  ⟨h.clock, h.pins rfl, h.prf rfl, h.car rfl, h.ptr rfl, h.shf rfl, h.fdp rfl, h.ctc rfl, h.alm rfl, h.pending⟩

@[simp] theorem decideOrderGet_keeps (id : Nat) (s : State) :
    (decideOrderGet id s).state.clock = s.clock ∧ (decideOrderGet id s).state.pins = s.pins ∧
    (decideOrderGet id s).state.lnk = s.lnk ∧ (decideOrderGet id s).state.ord = s.ord ∧
    (decideOrderGet id s).state.ims = s.ims ∧ (decideOrderGet id s).state.prf = s.prf ∧
    (decideOrderGet id s).state.car = s.car ∧ (decideOrderGet id s).state.ptr = s.ptr ∧
    (decideOrderGet id s).state.shf = s.shf ∧ (decideOrderGet id s).state.fdp = s.fdp ∧
    (decideOrderGet id s).state.ctc = s.ctc ∧ (decideOrderGet id s).state.exs = s.exs ∧
    (decideOrderGet id s).state.alm = s.alm ∧ (decideOrderGet id s).state.pending = s.pending :=
  have h := decideOrderGet_frame id s
  ⟨h.clock, h.pins rfl, h.lnk rfl, h.ord rfl, h.ims rfl, h.prf rfl, h.car rfl, h.ptr rfl, h.shf rfl, h.fdp rfl, h.ctc rfl, h.exs rfl, h.alm rfl, h.pending⟩

@[simp] theorem decideGarmentGet_keeps (serial : Nat) (s : State) :
    (decideGarmentGet serial s).state.clock = s.clock ∧ (decideGarmentGet serial s).state.pins = s.pins ∧
    (decideGarmentGet serial s).state.lnk = s.lnk ∧ (decideGarmentGet serial s).state.ord = s.ord ∧
    (decideGarmentGet serial s).state.ims = s.ims ∧ (decideGarmentGet serial s).state.prf = s.prf ∧
    (decideGarmentGet serial s).state.car = s.car ∧ (decideGarmentGet serial s).state.ptr = s.ptr ∧
    (decideGarmentGet serial s).state.shf = s.shf ∧ (decideGarmentGet serial s).state.fdp = s.fdp ∧
    (decideGarmentGet serial s).state.ctc = s.ctc ∧ (decideGarmentGet serial s).state.exs = s.exs ∧
    (decideGarmentGet serial s).state.alm = s.alm ∧ (decideGarmentGet serial s).state.pending = s.pending :=
  have h := decideGarmentGet_frame serial s
  ⟨h.clock, h.pins rfl, h.lnk rfl, h.ord rfl, h.ims rfl, h.prf rfl, h.car rfl, h.ptr rfl, h.shf rfl, h.fdp rfl, h.ctc rfl, h.exs rfl, h.alm rfl, h.pending⟩

@[simp] theorem decideRecureDrop_keeps (serial : Nat) (s : State) :
    (decideRecureDrop serial s).state.clock = s.clock ∧ (decideRecureDrop serial s).state.pins = s.pins ∧
    (decideRecureDrop serial s).state.prf = s.prf ∧ (decideRecureDrop serial s).state.ptr = s.ptr ∧
    (decideRecureDrop serial s).state.shf = s.shf ∧ (decideRecureDrop serial s).state.fdp = s.fdp ∧
    (decideRecureDrop serial s).state.alm = s.alm ∧ (decideRecureDrop serial s).state.pending = s.pending :=
  have h := decideRecureDrop_frame serial s
  ⟨h.clock, h.pins rfl, h.prf rfl, h.ptr rfl, h.shf rfl, h.fdp rfl, h.alm rfl, h.pending⟩

@[simp] theorem decideBinClear_keeps (n force : Nat) (s : State) :
    (decideBinClear n force s).state.clock = s.clock ∧ (decideBinClear n force s).state.pins = s.pins ∧
    (decideBinClear n force s).state.prf = s.prf ∧ (decideBinClear n force s).state.car = s.car ∧
    (decideBinClear n force s).state.ptr = s.ptr ∧ (decideBinClear n force s).state.shf = s.shf ∧
    (decideBinClear n force s).state.fdp = s.fdp ∧ (decideBinClear n force s).state.ctc = s.ctc ∧
    (decideBinClear n force s).state.alm = s.alm ∧ (decideBinClear n force s).state.pending = s.pending :=
  have h := decideBinClear_frame n force s
  ⟨h.clock, h.pins rfl, h.prf rfl, h.car rfl, h.ptr rfl, h.shf rfl, h.fdp rfl, h.ctc rfl, h.alm rfl, h.pending⟩

@[simp] theorem decideFilled_keeps (s : State) :
    (decideFilled s).state.clock = s.clock ∧ (decideFilled s).state.pins = s.pins ∧
    (decideFilled s).state.ord = s.ord ∧ (decideFilled s).state.prf = s.prf ∧
    (decideFilled s).state.ctc = s.ctc ∧ (decideFilled s).state.exs = s.exs ∧
    (decideFilled s).state.pending = s.pending :=
  have h := decideFilled_frame s
  ⟨h.clock, h.pins rfl, h.ord rfl, h.prf rfl, h.ctc rfl, h.exs rfl, h.pending⟩

@[simp] theorem decideStart_keeps (s : State) :
    (decideStart s).state.clock = s.clock ∧ (decideStart s).state.pins = s.pins ∧
    (decideStart s).state.ord = s.ord ∧ (decideStart s).state.prf = s.prf ∧ (decideStart s).state.exs = s.exs ∧
    (decideStart s).state.pending = s.pending :=
  have h := decideStart_frame s
  ⟨h.clock, h.pins rfl, h.ord rfl, h.prf rfl, h.exs rfl, h.pending⟩

@[simp] theorem decideStop_keeps (s : State) :
    (decideStop s).state.clock = s.clock ∧ (decideStop s).state.pins = s.pins ∧
    (decideStop s).state.ord = s.ord ∧ (decideStop s).state.prf = s.prf ∧ (decideStop s).state.exs = s.exs ∧
    (decideStop s).state.pending = s.pending :=
  have h := decideStop_frame s
  ⟨h.clock, h.pins rfl, h.ord rfl, h.prf rfl, h.exs rfl, h.pending⟩

@[simp] theorem decideHalt_keeps (s : State) :
    (decideHalt s).state.clock = s.clock ∧ (decideHalt s).state.pins = s.pins ∧
    (decideHalt s).state.ord = s.ord ∧ (decideHalt s).state.prf = s.prf ∧ (decideHalt s).state.exs = s.exs ∧
    (decideHalt s).state.pending = s.pending :=
  have h := decideHalt_frame s
  ⟨h.clock, h.pins rfl, h.ord rfl, h.prf rfl, h.exs rfl, h.pending⟩

@[simp] theorem decideAlarmGet_keeps (kind number : Nat) (s : State) :
    (decideAlarmGet kind number s).state.clock = s.clock ∧ (decideAlarmGet kind number s).state.pins = s.pins ∧
    (decideAlarmGet kind number s).state.lnk = s.lnk ∧ (decideAlarmGet kind number s).state.ord = s.ord ∧
    (decideAlarmGet kind number s).state.ims = s.ims ∧ (decideAlarmGet kind number s).state.prf = s.prf ∧
    (decideAlarmGet kind number s).state.car = s.car ∧ (decideAlarmGet kind number s).state.ptr = s.ptr ∧
    (decideAlarmGet kind number s).state.shf = s.shf ∧ (decideAlarmGet kind number s).state.fdp = s.fdp ∧
    (decideAlarmGet kind number s).state.ctc = s.ctc ∧ (decideAlarmGet kind number s).state.exs = s.exs ∧
    (decideAlarmGet kind number s).state.alm = s.alm ∧ (decideAlarmGet kind number s).state.pending = s.pending :=
  have h := decideAlarmGet_frame kind number s
  ⟨h.clock, h.pins rfl, h.lnk rfl, h.ord rfl, h.ims rfl, h.prf rfl, h.car rfl, h.ptr rfl, h.shf rfl, h.fdp rfl, h.ctc rfl, h.exs rfl, h.alm rfl, h.pending⟩

@[simp] theorem decideAck_keeps (kind number count : Nat) (s : State) :
    (decideAck kind number count s).state.clock = s.clock ∧
    (decideAck kind number count s).state.pins = s.pins ∧ (decideAck kind number count s).state.ord = s.ord ∧
    (decideAck kind number count s).state.prf = s.prf ∧ (decideAck kind number count s).state.ctc = s.ctc ∧
    (decideAck kind number count s).state.exs = s.exs ∧
    (decideAck kind number count s).state.pending = s.pending :=
  have h := decideAck_frame kind number count s
  ⟨h.clock, h.pins rfl, h.ord rfl, h.prf rfl, h.ctc rfl, h.exs rfl, h.pending⟩

@[simp] theorem decideDrill_keeps (s : State) :
    (decideDrill s).state.clock = s.clock ∧ (decideDrill s).state.pins = s.pins ∧
    (decideDrill s).state.ord = s.ord ∧ (decideDrill s).state.ims = s.ims ∧ (decideDrill s).state.prf = s.prf ∧
    (decideDrill s).state.car = s.car ∧ (decideDrill s).state.ptr = s.ptr ∧ (decideDrill s).state.shf = s.shf ∧
    (decideDrill s).state.fdp = s.fdp ∧ (decideDrill s).state.ctc = s.ctc ∧ (decideDrill s).state.exs = s.exs ∧
    (decideDrill s).state.pending = s.pending :=
  have h := decideDrill_frame s
  ⟨h.clock, h.pins rfl, h.ord rfl, h.ims rfl, h.prf rfl, h.car rfl, h.ptr rfl, h.shf rfl, h.fdp rfl, h.ctc rfl, h.exs rfl, h.pending⟩

@[simp] theorem sampleTunnel_keeps (z1 z2 z3 : Reading) (s : State) :
    (sampleTunnel z1 z2 z3 s).clock = s.clock ∧ (sampleTunnel z1 z2 z3 s).pins = s.pins ∧
    (sampleTunnel z1 z2 z3 s).ord = s.ord ∧ (sampleTunnel z1 z2 z3 s).ims = s.ims ∧
    (sampleTunnel z1 z2 z3 s).prf = s.prf ∧ (sampleTunnel z1 z2 z3 s).ptr = s.ptr ∧
    (sampleTunnel z1 z2 z3 s).shf = s.shf ∧ (sampleTunnel z1 z2 z3 s).fdp = s.fdp ∧
    (sampleTunnel z1 z2 z3 s).pending = s.pending :=
  have h := sampleTunnel_frame z1 z2 z3 s
  ⟨h.clock, h.pins rfl, h.ord rfl, h.ims rfl, h.prf rfl, h.ptr rfl, h.shf rfl, h.fdp rfl, h.pending⟩

@[simp] theorem stallBelt_keeps (s : State) :
    (stallBelt s).clock = s.clock ∧ (stallBelt s).pins = s.pins ∧ (stallBelt s).ord = s.ord ∧
    (stallBelt s).prf = s.prf ∧ (stallBelt s).exs = s.exs ∧ (stallBelt s).pending = s.pending :=
  have h := stallBelt_frame s
  ⟨h.clock, h.pins rfl, h.ord rfl, h.prf rfl, h.exs rfl, h.pending⟩

@[simp] theorem endHold_keeps (s : State) :
    (endHold s).clock = s.clock ∧ (endHold s).pins = s.pins ∧ (endHold s).lnk = s.lnk ∧
    (endHold s).ord = s.ord ∧ (endHold s).ims = s.ims ∧ (endHold s).prf = s.prf ∧ (endHold s).car = s.car ∧
    (endHold s).ptr = s.ptr ∧ (endHold s).shf = s.shf ∧ (endHold s).fdp = s.fdp ∧ (endHold s).ctc = s.ctc ∧
    (endHold s).alm = s.alm ∧ (endHold s).pending = s.pending :=
  have h := endHold_frame s
  ⟨h.clock, h.pins rfl, h.lnk rfl, h.ord rfl, h.ims rfl, h.prf rfl, h.car rfl, h.ptr rfl, h.shf rfl, h.fdp rfl, h.ctc rfl, h.alm rfl, h.pending⟩

end Sys2Proof.Machine
end

