-- ==== Sys2Proof/Laws/Onward.lean ====
section
/-!
SUPPORT. What the transmitter and the waiting conditions can do, said once: `transmit` is `Sent`, `settle` is `Onward`;
and what taking a request makes of the state, `replied`.
-/

namespace Sys2Proof.Machine

theorem nextNotice_suffix (s : State) (l rest : List Ref) (k : Sending) (h : nextNotice s l =
    some (k, rest)) : rest <:+ l := by
  induction l with
  | nil => simp [nextNotice] at h
  | cons r l ih =>
    simp only [nextNotice] at h
    split at h
    · simp at h; rw [h.2]; exact List.suffix_cons _ _
    · exact (ih h).trans (List.suffix_cons _ _)

/-- Everything the transmitter can do. -/
theorem transmit_sent (u : State) : Sent u (transmit u) := by
  unfold transmit
  split
  · split
    · exact ⟨rfl, rfl, List.suffix_refl _⟩
    · split
      · rename_i k rest h; exact ⟨rfl, rfl, nextNotice_suffix _ _ _ _ h⟩
      · exact ⟨rfl, rfl, List.nil_suffix⟩
  · exact ⟨rfl, rfl, List.suffix_refl _⟩

theorem tabMap_print (slot : Nat) (on : Bool) (l : List (Nat × Image)) :
   (tabMap slot (fun i => { i with printActive := on }) l).map (fun p => (p.1, { p.2 with printActive := false })) =
    l.map fun p => (p.1, { p.2 with printActive := false }) := by
  induction l with
  | nil => rfl
  | cons p l ih => obtain ⟨j, v⟩ := p; simp only [tabMap, List.map_cons, ih]; split <;> rfl

theorem startPrint_keepsPlan (u : State) : (startPrint u).shf.plan = u.shf.plan ∧
    (startPrint u).fdp.nozzles = u.fdp.nozzles ∧
   { (startPrint u).ims with images := u.ims.images } = u.ims ∧ (startPrint u).ims.images.map (fun p => (p.1, { p.2 with printActive := false })) =
    u.ims.images.map fun p => (p.1, { p.2 with printActive := false }) := by
  have hs : ∀ (s : State), (completeSpit s).shf.plan = s.shf.plan ∧ (completeSpit s).fdp.nozzles = s.fdp.nozzles := by
    intro s; unfold completeSpit startStroke
    repeat' split
    all_goals simp [moveShuttle, startStrokeState, clearHead]
  have hp : ∀ n (s : State), (setPrintActive n true s).shf = s.shf ∧ (setPrintActive n true s).fdp = s.fdp ∧ { (setPrintActive n true s).ims with images := s.ims.images } = s.ims ∧ (setPrintActive n true s).ims.images.map (fun p => (p.1, { p.2 with printActive := false })) =
    s.ims.images.map fun p => (p.1, { p.2 with printActive := false }) := by
    intro n s
    unfold setPrintActive withImageId withImage
    repeat' split
    all_goals simp [tabMap_print]
  unfold startPrint
  split
  · split
    · rename_i n h hc
      simp only [startSpit]
      generalize hw : State.withFdp _ _ = w
      have e : w.shf.plan = u.shf.plan ∧ w.fdp.nozzles = u.fdp.nozzles ∧ w.ims = u.ims := by subst hw; simp
      obtain ⟨e1, e2, e3⟩ := e
      have := hp n w
      rw [e3] at this
      split
      · split
        · rw [(hs _).1, (hs _).2, this.1, this.2.1]
          exact ⟨e1, e2, by simpa using this.2.2.1, by simpa using this.2.2.2⟩
        · rw [this.1, this.2.1]
          exact ⟨e1, e2, this.2.2⟩
      · rw [this.1, this.2.1]
        exact ⟨e1, e2, this.2.2⟩
    · simp
  · simp

/-- No print begins but from WAITING. -/
theorem startPrint_waits (u : State) (h : u.shf.job ≠ .waiting) : startPrint u = u := by
  unfold startPrint; split <;> simp [h]

/-- No traverse begins but from WAITING. -/
theorem startTraverse_waits (u : State) (h : u.ptr.job ≠ .waiting) : startTraverse u = u := by
  unfold startTraverse; split <;> simp [h]

/-- No index starts while a station is WORKING. -/
theorem advance_noIndex (u : State) (hn : u.car.index = .none) (hw : ∃ st, (station st u).working = true) :
    { (advance u).car with lamp := u.car.lamp } = u.car := by
  have e : (startPrint (startTraverse u)).car = u.car := by simp
  unfold advance
  generalize startPrint (startTraverse u) = w at *
  have hi : tryIndex w = w := by
    have hr : allReleased w = false := by
      obtain ⟨st, hs⟩ := hw
      cases st <;> simp_all [allReleased, station]
    unfold tryIndex; simp [e, hn, hr]
  rw [hi, ← e]
  unfold updateLamp; split <;> simp

/-- Everything the waiting conditions can do, and that of the notice list they may append the line alone. -/
theorem advance_onward (u : State) : Onward u (advance u) ∧
    ((advance u).lnk = u.lnk ∨ (advance u).lnk = { u.lnk with notices := noteIn .line u.lnk.notices }) := by
  have hc : ({ (advance u).car with index := u.car.index, indexRun := u.car.indexRun, indexFrom := u.car.indexFrom, lamp := u.car.lamp } = u.car) ∧ ((advance u).lnk = u.lnk ∨ (advance u).lnk = { u.lnk with notices := noteIn .line u.lnk.notices }) := by
    have h1 : ∀ s : State, { (updateLamp s).car with lamp := s.car.lamp } = s.car ∧ ((updateLamp s).lnk = s.lnk ∨ (updateLamp s).lnk = { s.lnk with notices := noteIn .line s.lnk.notices }) := by
      intro s; unfold updateLamp note; split
      · simp
      · refine ⟨?_, Or.inr ?_⟩ <;> simp
    have h2 : ∀ s : State, { (tryIndex s).car with index := s.car.index, indexRun := s.car.indexRun, indexFrom := s.car.indexFrom } = s.car ∧ (tryIndex s).lnk = s.lnk := by
      intro s; unfold tryIndex pauseIndex; repeat' split
      all_goals simp
    have e : (startPrint (startTraverse u)).car = u.car := by simp
    have e' : (startPrint (startTraverse u)).lnk = u.lnk := by simp
    generalize hw : startPrint (startTraverse u) = w at e e'
    have a := h2 w; have b := h1 (tryIndex w)
    have hadv : advance u = updateLamp (tryIndex w) := by simp [advance, hw]
    rw [hadv]
    rw [e] at a; rw [e'] at a
    rw [a.2] at b
    refine ⟨?_, b.2⟩
    have b1 := b.1; have a1 := a.1
    generalize (updateLamp (tryIndex w)).car = x at b1
    generalize (tryIndex w).car = y at a1 b1
    rw [← a1, ← b1]
  have hp : { (advance u).ptr with bar := u.ptr.bar, barTravel := u.ptr.barTravel, barFrom := u.ptr.barFrom, job := u.ptr.job, row := u.ptr.row, valves := u.ptr.valves } = u.ptr := by
    simp only [advance, updateLamp_keeps, tryIndex_keeps, startPrint_keeps]
    unfold startTraverse; repeat' split
    all_goals simp
  have hs := startPrint_keepsPlan (startTraverse u)
  refine ⟨?_, hc.2⟩
  constructor
  all_goals try (simp; done)
  · rcases hc.2 with h | h <;> rw [h]
  · rcases hc.2 with h | h <;> rw [h]
    · exact Or.inl (List.suffix_refl _)
    · exact Or.inr (List.suffix_refl _)
  · have := hs.2.2.1; simp [advance] at *; exact this
  · have := hs.2.2.2; simp [advance] at *; exact this
  · exact hc.1
  · exact hp
  · have := hs.1; simp [advance] at *; exact this
  · have := hs.2.1; simp [advance] at *; exact this
  · intro h; simp [advance, startPrint_waits _ (show (startTraverse u).shf.job ≠ .waiting by simpa using h)]
  · intro h; simp [advance, startTraverse_waits u h]
  · exact advance_noIndex u

/-- The transmitter after the waiting conditions. -/
theorem Onward.sent {u t w : State} (h : Onward u t) (k : Sent t w) : Onward u w := by
  have r := k.rest
  obtain ⟨h1, h2, h3, h4, h5, h6, h7, h8, h9, h10, h11, h12, h13, h14, h15, h16, h17, h18, h19⟩ := h
  have e : w = { t with lnk := w.lnk } := by rw [← r]
  have l := k.link
  have f := k.taken
  generalize w.lnk = x at *
  subst e
  refine ⟨h1, h2, h3, h4, h5, h6, h7, h8, ?_, ?_, h11, h12, h13, h14, h15, h16, h17, h18, h19⟩
  · rw [← h9, ← l]
  · exact h10.imp (fun g => f.trans g) fun g => f.trans g

/-- Everything the waiting conditions and the transmitter can do. -/
theorem settle_onward (u : State) : Onward u (settle u) := (advance_onward u).1.sent (transmit_sent _)

/-- Nothing has begun. -/
theorem Onward.refl (u : State) : Onward u u :=
  ⟨rfl, rfl, rfl, rfl, rfl, rfl, rfl, rfl, rfl, Or.inl (List.suffix_refl _), rfl, rfl, rfl, rfl, rfl, rfl,
    fun _ => ⟨rfl, rfl, rfl⟩, fun _ => rfl, fun _ _ => rfl⟩

/-- A reply in the slot leaves what has begun as it is. -/
theorem Onward.replied {u t : State} (h : Onward u t) (kind tag : Byte) (st : Status) (content : List Byte) :
    Onward (replied kind tag st content u) (replied kind tag st content t) := by
  obtain ⟨h1, h2, h3, h4, h5, h6, h7, h8, h9, h10, h11, h12, h13, h14, h15, h16, h17, h18, h19⟩ := h
  refine ⟨h1, h2, h3, h4, h5, h6, h7, h8, ?_, h10, h11, h12, h13, h14, h15, h16, h17, h18, h19⟩
  have g := congrArg Lnk.configured h9
  have k := congrArg Lnk.pipe h9
  simp only [Machine.replied] at *
  simp_all

/-- A query taken: OK with its content, and nothing else changed. -/
theorem take_answer {kind tag : Byte} {content : List Byte} {s : State} (h : Reads s) :
    take kind tag (answer content) s = replied kind tag .ok content s := by
  obtain ⟨hc, -⟩ := h
  simp [take, hc, answer, transmit, placeReply, replied, replyFrame, replyBody, State.withLnk]
  split <;> simp_all

/-- A request taken: the owner's answer placed in the slot. -/
theorem take_replied {kind tag : Byte} {d : State → Answer} {s : State} (h : Reads s)
    (h1 : (d s).state.lnk.configured = s.lnk.configured)
    (h3 : (d s).content = [] ∨ (d s).status = .ok ∨ (d s).status = .clamped) :
    take kind tag d s = replied kind tag (d s).status (d s).content (d s).state := by
  obtain ⟨hc, -⟩ := h
  simp [take, hc, transmit, placeReply, replied, replyFrame, replyBody, State.withLnk, h1]
  rcases h3 with h3 | h3 | h3 <;> split <;> simp_all
  all_goals (split <;> simp_all)

/-- A command that ends with `settle`: what went before is all there is to say. -/
theorem settled {X u : State} (h : X = u) : ∃ t,
    (Host.Outcome.next (settle X) : Host.Outcome State Fault Refusal) = .next t ∧
    Onward u t := ⟨_, rfl, h ▸ settle_onward X⟩

theorem note_noted (r : Ref) (s : State) : note r s = noted r s := rfl
theorem satAdd_count (n : Nat) : satAdd 255 1 n = min 255 (n+1) := by unfold satAdd; split <;> omega
theorem satAdd_one (a n : Nat) : satAdd a 1 n = min a (n+1) := by unfold satAdd; split <;> omega

/-- A momentary onset. -/
theorem onset_mom (i : Nat) (u : State) : onset i true u = alarmed i Alarm.passed u := by
  simp [onset, alarmed, noteAlarm, withAlarm, listMap, State.withAlm, note_noted, Alarm.passed, satAdd_count]
  rfl
/-- An onset that lasts. -/
theorem onset_lev (i : Nat) (u : State) : onset i false u = alarmed i Alarm.begun u := by
  simp [onset, alarmed, noteAlarm, withAlarm, listMap, State.withAlm, note_noted, Alarm.begun, satAdd_count]
  rfl

/-- The end of a condition. -/
theorem ended_eq (i : Nat) (u : State) : conditionEnd i u = endedAt i u := by
  unfold conditionEnd endedAt
  by_cases h : (alarm i u).state = .active
  · simp [h, alarmed, noteAlarm, withAlarm, listMap, State.withAlm, note_noted]
    have : u.alm.alarms.modify i Alarm.ended = u.alm.alarms.modify i (fun a => if a.acked = true then { a with state := .idle, present := false, acked := false, simulated := false } else { a with state := .latched, present := false }) := by
      apply List.ext_getElem?
      intro j
      simp only [List.getElem?_modify]
      by_cases e : i = j
      · subst e
        simp [alarm] at h
        cases h2 : u.alm.alarms[i]? with
        | none => simp
        | some a => simp [h2] at h; simp [Alarm.ended, h]
      · simp [e]
    rw [this]; rfl
  · simp [h, withAlarm, listMap, State.withAlm]
    apply List.ext_getElem?
    intro j
    simp only [List.getElem?_modify]
    by_cases e : i = j
    · subst e
      simp [alarm] at h
      cases h2 : u.alm.alarms[i]? with
      | none => simp
      | some a => simp [h2] at h; cases hs : a.state <;> simp_all [Alarm.ended]
    · simp [e]

theorem tabMap_tabMap {α : Type} (k : Nat) (f g : α →
    α) (l : List (Nat × α)) : tabMap k f (tabMap k g l) = tabMap k (fun a => f (g a)) l := by
  induction l with
  | nil => rfl
  | cons p l ih => obtain ⟨j, v⟩ := p; simp only [tabMap, ih]; split <;> rfl

theorem stop_drained (u : State) : stopTest u = drained u := by
  unfold stopTest drained
  split
  · rename_i hh
    unfold setLine
    simp [hh.1, note_noted, noted, State.withCar, State.withCtc, syncBelt, lineWarm, lineMoves, commandedSpeed]
  · rfl

end Sys2Proof.Machine
end

