-- ==== Sys2Proof/Laws/Alarms.lean ====
section
/-!
SUPPORT. What the operations on the alarm records do to the record of one instance, and that they change nothing but
the alarm records and the notice list.
-/

namespace Sys2Proof.Machine

/-- The record of every instance after one is changed. -/
theorem alarm_withAlarm (i j : Nat) (f : Alarm → Alarm) (s : State) (h : i < s.alm.alarms.length) :
   alarm j (withAlarm i f s) = if j = i then f (alarm i s) else alarm j s := by
  simp only [alarm, withAlarm, State.withAlm, listMap, List.getElem?_modify]
  by_cases e : i = j
  · subst e; simp [h]
  · simp [e, Ne.symm e]

/-- Appending an instance changes no record. -/
theorem alarm_noteAlarm (i j : Nat) (s : State) : alarm i (noteAlarm j s) = alarm i s := by
  unfold noteAlarm; split <;> rfl

/-- Appending an instance changes nothing but the link. -/
theorem noteAlarm_others (i : Nat) (w : State) : noteAlarm i w =
    { w with lnk := (noteAlarm i w).lnk } := by unfold noteAlarm; split <;> rfl

/-- The record of every instance after an onset. -/
theorem alarm_onset (i j : Nat) (m : Bool) (s : State) (h : i < s.alm.alarms.length) : alarm j (onset i m s) =
    if j = i then
      { state := if m then .latched else .active, present := !m, acked := false,
        count := satAdd 255 1 (alarm i s).count, simulated := false }
    else alarm j s := by
  simp only [onset, alarm_noteAlarm]; rw [alarm_withAlarm _ _ _ _ h]

theorem onset_length (i : Nat) (m : Bool) (s : State) : (onset i m s).alm.alarms.length = s.alm.alarms.length := by
  unfold onset; rw [noteAlarm_others]; simp [withAlarm, listMap]

/-- An onset changes nothing but the alarm records and the link. -/
theorem onset_others (i : Nat) (m : Bool) (s : State) : onset i m s =
    { s with lnk := (onset i m s).lnk, alm := (onset i m s).alm } := by
  unfold onset; rw [noteAlarm_others]; rfl

/-- The record of every instance after a simulated onset. -/
theorem alarm_simulate (i j : Nat) (s : State) : alarm j (simulate i s) =
    if j = i ∧ i < s.alm.alarms.length ∧ (alarm i s).state = .idle then
      { alarm i s with
        state := .latched, acked := false, count := min 255 ((alarm i s).count + 1), simulated := true }
    else alarm j s := by
  unfold simulate
  split
  · rename_i h
    by_cases hl : i < s.alm.alarms.length
    · rw [alarm_noteAlarm, alarm_withAlarm _ _ _ _ hl]; simp [hl, h, satAdd_count]
    · rw [alarm_noteAlarm]; simp only [hl, false_and, and_false, if_false]
      simp [alarm, withAlarm, listMap, List.getElem?_modify]
      by_cases e : i = j
      · subst e; simp [List.getElem?_eq_none (Nat.le_of_not_lt hl)]
      · simp [e]
  · simp [*]

/-- The record of every instance after one SIMULATED instance has been cleared. -/
theorem alarm_unsimulate (i j : Nat) (s : State) :
  alarm j (unsimulate i s) = if j = i ∧ (alarm i s).simulated = true then { alarm i s with state := .idle, acked := false, simulated := false } else alarm j s := by
  unfold unsimulate
  by_cases e : (alarm i s).simulated = true
  · have h : i < s.alm.alarms.length := by
      by_contra hh; simp [alarm, List.getElem?_eq_none (Nat.le_of_not_lt hh)] at e; exact absurd e (by decide)
    simp [e, alarm_noteAlarm, alarm_withAlarm _ _ _ _ h]
  · simp [e]

theorem unsimulate_length (i : Nat) (s : State) : (unsimulate i s).alm.alarms.length = s.alm.alarms.length := by
  unfold unsimulate noteAlarm withAlarm listMap; repeat' split
  all_goals simp

theorem unsimulate_drill (i : Nat) (s : State) : (unsimulate i s).alm.drill = s.alm.drill := by
  unfold unsimulate noteAlarm withAlarm; repeat' split
  all_goals simp

/-- The record of every instance after the end of a drill. -/
theorem alarm_endDrill (s : State) (j : Nat) (hj : j < 22) :
  alarm j (endDrill s) = (if (alarm j s).simulated = true then { alarm j s with state := .idle, acked := false, simulated := false } else alarm j s) := by
  have key : ∀ (n : Nat) (u : State), n ≤ 22 → 
     alarm j ((List.range n).foldl (fun t i => unsimulate i t) u) = (if j < n ∧ (alarm j u).simulated = true then { alarm j u with state := .idle, acked := false, simulated := false } else alarm j u) := by
    intro n
    induction n with
    | zero => intro u _; simp
    | succ n ih =>
      intro u hn
      have a := ih u (by omega)
      rw [List.range_succ, List.foldl_append]
      simp only [List.foldl_cons, List.foldl_nil]
      rw [alarm_unsimulate]
      by_cases e : j = n
      · subst e; simp at a; rw [a]; simp
      · have : (j < n) ↔ j < n+1 := by omega
        simp [e, a, this]
  have := (key 22 (s.withAlm fun a => { a with drill := 0 }) (by omega))
  unfold endDrill
  rw [this]; simp [hj]; rfl

theorem endDrill_drill (s : State) : (endDrill s).alm.drill = 0 := by
  unfold endDrill
  generalize List.range 22 = l
  have : ∀ u : State, u.alm.drill = 0 → (l.foldl (fun t i => unsimulate i t) u).alm.drill = 0 := by
    induction l with
    | nil => intro u h; exact h
    | cons a l ih => intro u h; exact ih _ (by rw [unsimulate_drill]; exact h)
  exact this _ rfl

end Sys2Proof.Machine
end

