-- ==== Sys2Proof/Laws/Notices.lean ====
section
/-!
SUPPORT. What the shared operations may do to the link: append to the notice list, and nothing else.
-/

namespace Sys2Proof.Machine

/-- `t` holds the link of `s` with references appended to its notice list, if any. -/
def NotesMore (s t : State) : Prop := s.lnk.notices <+: t.lnk.notices ∧ { t.lnk with notices := s.lnk.notices } = s.lnk

theorem NotesMore.refl (s : State) : NotesMore s s := ⟨List.prefix_refl _, rfl⟩

theorem NotesMore.of_eq {s t : State} (h : t.lnk =
    s.lnk) : NotesMore s t := by unfold NotesMore; rw [h]; exact ⟨List.prefix_refl _, rfl⟩

theorem NotesMore.trans {s t u : State} (h : NotesMore s t) (k : NotesMore t u) : NotesMore s u := by
  refine ⟨h.1.trans k.1, ?_⟩
  have a := h.2; have b := k.2
  generalize u.lnk = x at *; generalize t.lnk = y at *
  rw [← a, ← b]

/-- What appending leaves as it is. -/
theorem NotesMore.cfg {s t : State} (h : NotesMore s t) : t.lnk.configured = s.lnk.configured ∧
    t.lnk.reply = s.lnk.reply ∧ t.lnk.tx = s.lnk.tx ∧ t.lnk.parser = s.lnk.parser ∧ t.lnk.sending = s.lnk.sending := by
  have := h.2; rw [← this]; simp

theorem NotesMore.mem {s t : State} (h : NotesMore s t) {r : Ref}
    (k : r ∈ s.lnk.notices) : r ∈ t.lnk.notices := h.1.subset k

theorem noteIn_prefix (r : Ref) (l : List Ref) : l <+: noteIn r l := by unfold noteIn; split <;> simp

theorem mem_noteIn (r : Ref) (l : List Ref) : r ∈ noteIn r l := by unfold noteIn; split <;> simp [*]

theorem note_more (r : Ref) (s : State) : NotesMore s (note r s) := ⟨noteIn_prefix _ _, rfl⟩

theorem mem_note (r : Ref) (s : State) : r ∈ (note r s).lnk.notices := mem_noteIn _ _

theorem noteAlarm_more (i : Nat) (s : State) : NotesMore s
    (noteAlarm i s) := by unfold noteAlarm; split; exact NotesMore.refl _; exact note_more _ _

theorem setHold_more (st h) (s : State) : NotesMore s (setHold st h s) := by
  unfold setHold; split
  · exact NotesMore.refl _
  · exact (NotesMore.of_eq (by cases st <;> rfl)).trans (note_more _ _)

theorem unsimulate_more (i) (s : State) : NotesMore s (unsimulate i s) := by
  unfold unsimulate; split
  · exact (NotesMore.of_eq (by simp [withAlarm])).trans (noteAlarm_more _ _)
  · exact NotesMore.refl _

theorem endDrill_more (s : State) : NotesMore s (endDrill s) := by
  unfold endDrill
  generalize List.range 22 = l
  have : ∀ u : State, NotesMore u (l.foldl (fun t i => unsimulate i t) u) := by
    induction l with
    | nil => intro u; exact NotesMore.refl _
    | cons a l ih => intro u; exact (unsimulate_more _ _).trans (ih _)
  exact this (s.withAlm fun a => { a with drill := 0 })

theorem haltFlash_more (s : State) : NotesMore s (haltFlash s) := by
  unfold haltFlash
  split
  · split
    · simp only []
      split <;> exact NotesMore.of_eq (by simp [addWarning, setDwell, withGarment])
    · exact NotesMore.refl _
  · exact (NotesMore.of_eq (by simp)).trans (setHold_more _ _ _)
  · exact NotesMore.of_eq (by simp)
  · exact NotesMore.refl _

theorem onset_more (i m) (s : State) : NotesMore s (onset i m s) := by
  unfold onset; exact (NotesMore.of_eq (by simp [withAlarm])).trans (noteAlarm_more _ _)

theorem setLine_more (l) (s : State) : NotesMore s (setLine l s) := by
  unfold setLine; split
  · exact NotesMore.refl _
  · refine (NotesMore.of_eq (s := s) (t := s.withCar fun c => { c with line := l, refused := if l = .running then c.refused else false }) (by simp)).trans ?_
    refine (note_more .line _).trans (NotesMore.of_eq ?_)
    have k : ∀ w : State, (syncBelt w).lnk = w.lnk := fun w => rfl
    simp only []
    rw [k]
    by_cases hw : lineWarm (note .line (s.withCar fun c => { c with line := l, refused := if l = .running then c.refused else false })) = true
    · rw [if_pos hw]
    · rw [if_neg hw]; rfl

theorem enterHalted_more (s : State) : NotesMore s (enterHalted s) := by
  have k : NotesMore s (haltPrint (haltFlash (haltPretreat (endDrill ((pauseIndex (setLine .halted s)).withCar fun c => { c with transfer := if c.transfer = .running then .stopped else c.transfer }))))) := by
    refine (setLine_more .halted s).trans ?_
    refine (NotesMore.of_eq (s := setLine .halted s) (t := (pauseIndex (setLine .halted s)).withCar fun c => { c with transfer := if c.transfer = .running then .stopped else c.transfer }) (by have := (pauseIndex_frame (setLine .halted s)).lnk rfl; simpa using this)).trans ?_
    refine (endDrill_more _).trans ?_
    refine (NotesMore.of_eq ((haltPretreat_frame _).lnk rfl)).trans ?_
    exact (haltFlash_more _).trans (NotesMore.of_eq ((haltPrint_frame _).lnk rfl))
  unfold enterHalted; split
  · exact k
  · exact k
  · exact k
  · exact NotesMore.refl _

end Sys2Proof.Machine
end

