-- ==== Sys2Proof/Laws/Halt.lean ====
section
/-!
SUPPORT. What the entry to HALTED does, said once (R73, R98, R105, R122), and what becomes of a hot wait in HALTED and at the
resume (R103, R105).
-/

namespace Sys2Proof.Machine

/-- The line state alone (R73, R149). -/
theorem setLine_halted (s : State) (h : s.car.line ≠ .halted) : setLine .halted s = noted .line { s with
   car := { s.car with line := .halted, refused := false },
   ctc := { s.ctc with zones := s.ctc.zones.map fun z => { z with duty := 0 }, stallFrom := none },
   ptr := { s.ptr with heater := false } } := by
  simp [setLine, h, syncBelt, commandedSpeed, lineWarm, lineMoves, note_noted, noted, State.withCar, State.withCtc, State.withPtr]

/-- The entry to HALTED appends the line. -/
theorem enterHalted_notes_line (s : State) (h : s.car.line = .running ∨ s.car.line = .draining ∨ s.car.line =
    .stopped) : .line ∈ (enterHalted s).lnk.notices := by
  have e : enterHalted s = (haltPrint (haltFlash (haltPretreat (endDrill ((pauseIndex (setLine .halted s)).withCar fun c => { c with transfer := if c.transfer = .running then .stopped else c.transfer }))))) := by
    unfold enterHalted; rcases h with h | h | h <;> rw [h]
  rw [e]
  refine NotesMore.mem (s := setLine .halted s) ?_ ?_
  · refine (NotesMore.of_eq (s := setLine .halted s) (t := (pauseIndex (setLine .halted s)).withCar fun c => { c with transfer := if c.transfer = .running then .stopped else c.transfer }) (by have := (pauseIndex_frame (setLine .halted s)).lnk rfl; simpa using this)).trans ?_
    refine (endDrill_more _).trans ?_
    refine (NotesMore.of_eq ((haltPretreat_frame _).lnk rfl)).trans ?_
    exact (haltFlash_more _).trans (NotesMore.of_eq ((haltPrint_frame _).lnk rfl))
  · rw [setLine_halted]
    · exact mem_noteIn _ _
    · rcases h with h | h | h <;> simp [h]

theorem advance_more (u : State) : NotesMore u (advance u) := by
  rcases (advance_onward u).2 with h | h
  · exact NotesMore.of_eq h
  · unfold NotesMore; rw [h]; exact ⟨noteIn_prefix _ _, rfl⟩

/-- PTR at PRETREAT (R98). -/
theorem haltPretreat_does (s : State) : { (haltPretreat s).car with garments := s.car.garments } = s.car ∧
    (haltPretreat s).ptr.bar = s.ptr.bar ∧ (haltPretreat s).ptr.heater = s.ptr.heater ∧
    (s.ptr.bar ≠ .parked → (haltPretreat s).ptr.barFrom = none) := by
  unfold haltPretreat stopBar spend addDefect withGarment
  repeat' split
  all_goals simp
  all_goals (try simp_all)
  all_goals (cases hb : s.ptr.bar <;> cases hf : s.ptr.barFrom <;> simp_all)

/-- PTR at FLASH (R105). -/
theorem haltFlash_does (s : State) : { (haltFlash s).car with garments := s.car.garments, flash := s.car.flash } =
    s.car ∧ (haltFlash s).car.flash.working = s.car.flash.working ∧ (haltFlash s).ptr.bar = s.ptr.bar ∧
    (haltFlash s).ptr.heater = s.ptr.heater ∧ (haltFlash s).ptr.barFrom = s.ptr.barFrom  := by
  have k : ∀ w : State, { (setHold .flash .none w).car with flash := w.car.flash } = w.car ∧ (setHold .flash .none w).car.flash.working = w.car.flash.working ∧ (setHold .flash .none w).ptr = w.ptr := by
    intro w; unfold setHold; split <;> simp [setStation, station, note, State.withLnk, State.withCar]
  unfold haltFlash setDwell addWarning withGarment
  split
  · split
    · simp only []
      split <;> simp
    · simp
  · have := k (s.withPtr fun p => { p with flashJob := .none, waitFrom := none })
    generalize setHold .flash .none (s.withPtr fun p => { p with flashJob := .none, waitFrom := none }) = x at *
    obtain ⟨a, b, c⟩ := this
    rw [c, b]
    refine ⟨?_, rfl, rfl, rfl, rfl⟩
    have : s.car = (s.withPtr fun p => { p with flashJob := .none, waitFrom := none }).car := rfl
    rw [this, ← a]
  · simp
  · simp

/-- A hot wait at the entry to HALTED (R105). -/
theorem haltFlash_hot (s : State) (h : s.ptr.flashJob = .hot) :
    haltFlash s = s.withPtr fun p => { p with hotOver := false } := by
  unfold haltFlash; split <;> simp_all

/-- Everything that FLASH_HOT found IDLE does to a hot wait: in HALTED it is over for the resume, and elsewhere PTR
decides again (R103, R105). -/
theorem endHotWait_cases (s : State) :
    (s.ptr.flashJob = .hot ∧ ownerIdle aFlashHot s = true ∧
      (s.car.line = .halted ∧ endHotWait s = s.withPtr (fun p => { p with hotOver := true }) ∨
        s.car.line ≠ .halted ∧ endHotWait s = decideFlash s)) ∨
    (¬(s.ptr.flashJob = .hot ∧ ownerIdle aFlashHot s = true) ∧ endHotWait s = s) := by
  by_cases h : s.ptr.flashJob = .hot ∧ ownerIdle aFlashHot s = true
  · refine .inl ⟨h.1, h.2, ?_⟩
    by_cases l : s.car.line = .halted <;> simp [endHotWait, h, l]
  · exact .inr ⟨h, by simp [endHotWait, h]⟩

/-- A hot wait at the line resume: decided again where it was over in HALTED, whatever FLASH_HOT reads now (R105). -/
theorem resumeFlash_hot (s : State) (n : Nat) (h : s.ptr.flashJob = .hot) (g : garmentAt .flash s = some n) :
    resumeFlash s = if s.ptr.hotOver then decideFlash s else s := by
  simp [resumeFlash, h, g]

theorem setPrintActive_does (n : Nat) (b : Bool) (s : State) : (setPrintActive n b s).car = s.car ∧
    (setPrintActive n b s).shf = s.shf ∧ (setPrintActive n b s).fdp = s.fdp ∧
    { (setPrintActive n b s).ims with images := s.ims.images } = s.ims := by
  unfold setPrintActive withImageId withImage
  repeat' split
  all_goals simp

theorem abortPrint_does (s : State) : { (abortPrint s).car with garments := s.car.garments } = s.car ∧
    { (abortPrint s).ims with images := s.ims.images } = s.ims ∧ (abortPrint s).fdp.nozzles = s.fdp.nozzles ∧
    (abortPrint s).shf.shuttle = s.shf.shuttle ∧ (abortPrint s).shf.noSignal = s.shf.noSignal := by
  unfold abortPrint
  split
  · rename_i n _
    obtain ⟨w, hw⟩ : ∃ w, w = clearHead (dropStrokeState (writeRecord n true (addDefect n .printAborted s))) := ⟨_, rfl⟩
    have h : { w.car with garments := s.car.garments } = s.car ∧ w.ims = s.ims ∧ w.fdp.nozzles = s.fdp.nozzles ∧ w.shf = s.shf := by
      rw [hw]; unfold clearHead writeRecord dropStrokeState addDefect withGarment; simp; split <;> simp
    rw [← hw]; dsimp only
    have := setPrintActive_does n false w
    generalize setPrintActive n false w = x at *
    obtain ⟨a, b, c, d⟩ := this
    obtain ⟨e, f, g, i⟩ := h
    simp only [State.withShf, a, b, c]
    rw [f] at d
    exact ⟨e, d, g, by rw [i], by rw [i]⟩
  · simp

/-- SHF and FDP (R122). -/
theorem haltPrint_does (s : State) : { (haltPrint s).car with garments := s.car.garments } = s.car ∧
    { (haltPrint s).ims with images := s.ims.images } = s.ims ∧ (haltPrint s).fdp.nozzles = s.fdp.nozzles ∧
    (haltPrint s).shf.shuttle = (if s.shf.shuttle = .home then .home else .stopped) ∧
    (haltPrint s).shf.noSignal = none := by
  obtain ⟨w, hw⟩ : ∃ w, w = (if s.shf.shuttle = .home then s.withShf fun f => { f with noSignal := none } else stopShuttle s) := ⟨_, rfl⟩
  have k := abortPrint_does w
  have e : haltPrint s = if printInProgress w then (abortPrint w).withShf fun f => { f with job := .cut } else w := by rw [hw]; rfl
  have h1 : w.car = s.car ∧ w.ims = s.ims ∧ w.fdp = s.fdp ∧ w.shf.shuttle = (if s.shf.shuttle = .home then .home else .stopped) ∧ w.shf.noSignal = none := by
    rw [hw]; split <;> simp_all [stopShuttle, State.withShf]
  rw [e]; clear e hw
  obtain ⟨a, b, c, d, e⟩ := h1
  rw [a, b, c, d, e] at k
  split
  · obtain ⟨k1, k2, k3, k4, k5⟩ := k
    exact ⟨k1, k2, k3, k4, k5⟩
  · rw [a, b, c, d, e]; simp

/-- Everything that the entry to HALTED does to what outlives it. -/
theorem enterHalted_does (s : State) (h : s.car.line = .running ∨ s.car.line = .draining ∨ s.car.line = .stopped) :
   let t := enterHalted s
   (t.car.line = .halted ∧ t.car.index = (if s.car.index = .moving then .paused else s.car.index) ∧ t.car.transfer = (if s.car.transfer = .running then .stopped else s.car.transfer)
   ∧ t.car.refused = false ∧ t.car.platens = s.car.platens ∧ (∀ st, (station st t).working = (station st s).working) ∧
   t.car.indexRun = (if s.car.index = .moving then s.car.indexRun + (s.clock - s.car.indexFrom) else s.car.indexRun)) ∧
   t.ptr.heater = false ∧ (t.ptr.bar = s.ptr.bar ∧ (s.ptr.bar ≠ .parked → t.ptr.barFrom = none)) ∧
   (t.shf.shuttle = (if s.shf.shuttle = .home then .home else .stopped) ∧ t.shf.noSignal = none) ∧
   (∀ z ∈ t.ctc.zones, z.duty = 0) ∧ t.ctc = { s.ctc with zones := t.ctc.zones, stallFrom := none } ∧
   t.alm.drill = 0 ∧ (∀ i < 22, alarm i t = if (alarm i s).simulated = true then { alarm i s with state := .idle, acked := false, simulated := false } else alarm i s) ∧
   t.ord = s.ord ∧ t.prf = s.prf ∧ t.exs = s.exs ∧ (t.ims.store = s.ims.store ∧ t.ims.retired = s.ims.retired) ∧ t.fdp.nozzles = s.fdp.nozzles ∧ t.clock = s.clock ∧ t.pins = s.pins ∧ t.pending = s.pending := by
  intro t
  have hne : s.car.line ≠ .halted := by rcases h with h | h | h <;> simp [h]
  have hd : t = haltPrint (haltFlash (haltPretreat (endDrill ((pauseIndex (setLine .halted s)).withCar fun c => { c with transfer := if c.transfer = .running then .stopped else c.transfer })))) := by
    simp only [t, enterHalted]
    rcases h with h | h | h <;> rw [h]
  obtain ⟨a, ha⟩ : ∃ a, a = (pauseIndex (setLine .halted s)).withCar fun c => { c with transfer := if c.transfer = .running then .stopped else c.transfer } := ⟨_, rfl⟩
  have A : a.car = { s.car with line := .halted, refused := false, index := if s.car.index = .moving then .paused else s.car.index, transfer := if s.car.transfer = .running then .stopped else s.car.transfer, indexRun := if s.car.index = .moving then s.car.indexRun + (s.clock - s.car.indexFrom) else s.car.indexRun } ∧ a.ctc = { s.ctc with zones := s.ctc.zones.map fun z => { z with duty := 0 }, stallFrom := none } ∧ a.ptr = { s.ptr with heater := false } ∧ a.shf = s.shf ∧ a.alm = s.alm ∧ a.ims = s.ims ∧ a.fdp = s.fdp := by
    rw [ha, setLine_halted s hne]
    unfold pauseIndex
    by_cases hm : s.car.index = .moving <;> simp [hm, noted, State.withCar]
  obtain ⟨b, hb⟩ : ∃ b, b = endDrill a := ⟨_, rfl⟩
  have B := endDrill_frame a
  rw [← hb] at B
  obtain ⟨c, hc⟩ : ∃ c, c = haltPretreat b := ⟨_, rfl⟩
  have C := haltPretreat_does b
  have C' := haltPretreat_frame b
  rw [← hc] at C C'
  obtain ⟨d, hdd⟩ : ∃ d, d = haltFlash c := ⟨_, rfl⟩
  have D := haltFlash_does c
  have D' := haltFlash_frame c
  rw [← hdd] at D D'
  have E := haltPrint_does d
  have E' := haltPrint_frame d
  have : t = haltPrint d := by rw [hd, hdd, hc, hb, ha]
  rw [← this] at E E'
  have keep := enterHalted_keeps s
  change _ = _ ∧ _ at keep
  clear hd this
  obtain ⟨E1, E2, E3, E4, E5⟩ := E
  obtain ⟨D1, D2, D3, D4, D5⟩ := D
  obtain ⟨C1, C2, C3, C4⟩ := C
  obtain ⟨A1, A2, A3, A4, A5, A6, A7⟩ := A
  have ec : a.ctc = t.ctc := by rw [E'.ctc rfl, D'.ctc rfl, C'.ctc rfl, B.ctc rfl]
  have ea : t.alm = b.alm := by rw [E'.alm rfl, D'.alm rfl, C'.alm rfl]
  have ep : t.ptr = d.ptr := E'.ptr rfl
  have car : ∀ {β : Type} (f : Car → β), (∀ c : Car, ∀ g fl, f { c with garments := g, flash := fl } = f c) → f t.car = f a.car := by
    intro β f hf
    rw [← B.car rfl, ← hf t.car d.car.garments t.car.flash, show { t.car with garments := d.car.garments, flash := t.car.flash } = d.car from E1,
      ← hf d.car c.car.garments c.car.flash, show { d.car with garments := c.car.garments, flash := c.car.flash } = c.car from D1, ← hf c.car b.car.garments c.car.flash, show { c.car with garments := b.car.garments, flash := c.car.flash } = b.car from C1]
  have fl : t.car.flash.working = s.car.flash.working := by
    have x := congrArg Car.flash E1; have y := congrArg Car.flash C1; simp only at x y
    rw [x, D2, y, B.car rfl, A1]
  refine ⟨⟨?_, ?_, ?_, ?_, ?_, ?_, ?_⟩, ?_, ⟨?_, ?_⟩, ⟨?_, E5⟩, ?_, ?_, ?_, ?_, ?_, ?_, ?_, ⟨?_, ?_⟩, ?_, ?_, ?_, ?_⟩
  · rw [car Car.line (fun _ _ _ => rfl), A1]
  · rw [car Car.index (fun _ _ _ => rfl), A1]
  · rw [car Car.transfer (fun _ _ _ => rfl), A1]
  · rw [car Car.refused (fun _ _ _ => rfl), A1]
  · rw [car Car.platens (fun _ _ _ => rfl), A1]
  · intro st
    cases st
    · simp only [station]; rw [car Car.load (fun _ _ _ => rfl), A1]
    · simp only [station]; rw [car Car.pretreat (fun _ _ _ => rfl), A1]
    · simp only [station]; exact fl
    · simp only [station]; rw [car Car.print (fun _ _ _ => rfl), A1]
    · simp only [station]; rw [car Car.unload (fun _ _ _ => rfl), A1]
  · rw [car Car.indexRun (fun _ _ _ => rfl), A1]
  · rw [ep, D4, C3, B.ptr rfl, A3]
  · rw [ep, D3, C2, B.ptr rfl, A3]
  · intro hp; rw [ep, D5]; apply C4; rw [B.ptr rfl, A3]; exact hp
  · rw [E4, D'.shf rfl, C'.shf rfl, B.shf rfl, A4]
  · rw [← ec, A2]; simp
  · rw [← ec, A2]
  · rw [ea, hb]; exact endDrill_drill a
  · intro i hi
    have : alarm i t = alarm i b := by simp [alarm, ea]
    have h2 : alarm i a = alarm i s := by simp [alarm, A5]
    rw [this, hb, alarm_endDrill a i hi, h2]
  · simp [t]
  · simp [t]
  · simp [t]
  · have := congrArg Ims.store E2; simp at this; rw [this, D'.ims rfl, C'.ims rfl, B.ims rfl, A6]
  · have := congrArg Ims.retired E2; simp at this; rw [this, D'.ims rfl, C'.ims rfl, B.ims rfl, A6]
  · rw [E3, D'.fdp rfl, C'.fdp rfl, B.fdp rfl, A7]
  · simp [t]
  · simp [t]
  · simp [t]

/-- No waiting condition begins in HALTED. -/
theorem advance_halted (u : State) (h : u.car.line = .halted) (hi : u.car.index ≠ .moving) : advance u =
    if u.car.lamp = .off then u else noted .line { u with car := { u.car with lamp := .off } } := by
  have lm : lineMoves u = false := by simp [lineMoves, h]
  have e1 : startTraverse u = u := by unfold startTraverse; split <;> simp [lm]
  have e2 : startPrint u = u := by unfold startPrint; split <;> simp [lm]
  have e3 : tryIndex u = u := by
    unfold tryIndex; split <;> simp_all [indexAllowed]
  have e4 : lampOf u = .off := by simp [lampOf, lm]
  rw [advance, e1, e2, e3, updateLamp, e4]
  split <;> rfl

/-- The entry to HALTED and all that follows it, from a state that differs in pins, alarms and index alone. -/
theorem enterHalted_from (s v t : State) (h : v.car.line = .running ∨ v.car.line = .draining ∨ v.car.line = .stopped)
    (ht : Sent (advance (enterHalted v)) t)
    (e : v = { s with lnk := v.lnk, alm := v.alm, pins := v.pins, car := v.car })
    (e2 : v.car = { s.car with index := v.car.index, indexRun := v.car.indexRun })
    (e3 : v.car.index = s.car.index ∨ s.car.index = .moving ∧ v.car.index = .paused) : HaltedFrom s t ∧ t.pins = v.pins ∧ t.pending = v.pending ∧ t.car.indexRun = (enterHalted v).car.indexRun ∧ ∀ i < 22, alarm i t = if (alarm i v).simulated = true then { alarm i v with state := .idle, acked := false, simulated := false } else alarm i v := by
  obtain ⟨⟨k1, k2, k3, k4, k5, k6, k7⟩, a1, ⟨a2, a3⟩, ⟨a4, a5⟩, a6, a7, a8, a9, b1, b2, b3, ⟨b4, b5⟩, b6, b7, b8, b9⟩ := enterHalted_does v h
  have hnm : (enterHalted v).car.index ≠ .moving := by
    rw [k2]; by_cases hh : v.car.index = .moving
    · rw [if_pos hh]; decide
    · rw [if_neg hh]; exact hh
  have adv := advance_halted (enterHalted v) k1 (hnm)
  obtain ⟨w, hw⟩ : ∃ w, w = advance (enterHalted v) := ⟨_, rfl⟩
  rw [← hw] at ht adv
  generalize hx : enterHalted v = x at *
  have W : w = { x with lnk := w.lnk, car := { x.car with lamp := .off } } := by
    rw [adv]; split
    · rename_i hh; rw [← hh]
    · rfl
  have T := ht.rest
  have TT : t = { x with lnk := t.lnk, car := { x.car with lamp := .off } } := by
    have : t = { w with lnk := t.lnk } := by rw [← T]
    rw [this, W]
  clear T W adv ht hw
  have st : ∀ q, station q t = station q x := by rw [TT]; intro q; cases q <;> rfl
  have sv : ∀ q, (station q v).working = (station q s).working := by rw [e, e2]; intro q; cases q <;> rfl
  have ve : v.ptr = s.ptr ∧ v.shf = s.shf ∧ v.ctc = s.ctc ∧ v.ord = s.ord ∧ v.prf = s.prf ∧ v.exs = s.exs ∧ v.ims = s.ims ∧ v.fdp = s.fdp ∧ v.clock = s.clock := by
    rw [e]; exact ⟨rfl, rfl, rfl, rfl, rfl, rfl, rfl, rfl, rfl⟩
  have vc : v.car.transfer = s.car.transfer ∧ v.car.platens = s.car.platens := by rw [e2]; exact ⟨rfl, rfl⟩
  obtain ⟨v1, v2, v3, v4, v5, v6, v7, v8, v9⟩ := ve
  refine ⟨⟨?_, ?_, ?_, ?_, ?_, ?_, ?_, ?_, ?_, ?_, ?_, ?_, ?_, ?_, ?_, ?_, ?_, ?_⟩, ?_, ?_, ?_, ?_⟩
  · rw [TT]; exact k1
  · rw [TT]; simp only [k2]; rcases e3 with e3 | ⟨e3, e4⟩
    · rw [e3]
    · rw [e3, e4]; simp
  · rw [TT]; simp only [k3, vc]
  · rw [TT]; exact ⟨rfl, k4⟩
  · rw [TT]; simp only [k5, vc]
  · intro q; rw [st, k6, sv]
  · rw [TT]; exact a1
  · rw [TT]; simp only [a2, v1, true_and]; rw [← v1]; exact a3
  · rw [TT]; simp only [a4, v2, a5, and_self]
  · rw [TT]; exact a6
  · rw [TT]; rw [v3] at a7; exact a7
  · refine ⟨by rw [TT]; exact a8, ?_⟩
    intro i hi
    have : alarm i t = alarm i x := by rw [TT]; rfl
    rw [this, a9 i hi]
    by_cases hh : (alarm i v).simulated = true
    · rw [if_pos hh]
    · rw [if_neg hh]; simpa using hh
  · rw [TT]; simp [b1, v4]
  · rw [TT]; simp [b2, v5]
  · rw [TT]; simp [b3, v6]
  · rw [TT]; simp [b4, b5, v7]
  · rw [TT]; simp [b6, v8]
  · rw [TT]; simp [b7, v9]
  · rw [TT]; simp [b8]
  · rw [TT]; simp [b9]
  · rw [TT]
  · intro i hi
    have : alarm i t = alarm i x := by rw [TT]; rfl
    rw [this, a9 i hi]

end Sys2Proof.Machine
end

