-- ==== Sys2Proof/Laws/Reading.lean ====
section
/-!
SUPPORT. What reading the pipe can do, said once: nothing where no byte waits or the part does not read; one request
taken where the part stands between two frames; and whatever every byte and every request keeps.
-/

namespace Sys2Proof.Machine

theorem Reads.between {s : State} (h : Reads s) : betweenFrames s = true := by
  obtain ⟨hc, hr, hp, hk⟩ := h
  rcases hk with hk | hk <;> simp [betweenFrames, readsRequests, hc, hr, hp, hk]

/-- Between two frames a command's frame is taken at its event. -/
theorem deliver_reads {s : State} (h : Reads s) (c : Instr) : deliver c s = serve c s := by
  simp [deliver, h.between]

/-- While the part does not read, bytes join the pipe and nothing else changes. -/
theorem arrive_held {s : State} (h : readsRequests s = false) (c : Chunk) :
    arrive c s = { s with lnk := { s.lnk with pipe := s.lnk.pipe ++ [c] } } := by
  unfold arrive readPipe
  cases hp : s.lnk.pipe ++ [c] with
  | nil => simp at hp
  | cons d rest =>
    simp only [State.withLnk_lnk, hp, readChunks]
    simp only [readsRequests, State.withLnk_lnk] at h ⊢
    simp [h, State.withLnk]

/-- While the part does not read, a command's bytes join the pipe and nothing else changes. -/
theorem deliver_held {s : State} (h : readsRequests s = false) (c : Instr) :
    deliver c s = { s with lnk := { s.lnk with pipe := s.lnk.pipe ++ [chunkOf c] } } := by
  simp [deliver, betweenFrames, h, arrive_held h]

/-- Nothing waits: nothing is read. -/
theorem readPipe_nil {s : State} (h : s.lnk.pipe = []) : readPipe s = s := by
  obtain ⟨clock, pins, lnk, ord, ims, prf, car, ptr, shf, fdp, ctc, exs, alm, pending⟩ := s
  obtain ⟨configured, pipe, parser, reply, tx, sending, notices⟩ := lnk
  subst h
  rfl

/-- Reading keeps what every byte read and every request taken keeps. -/
theorem readPipe_keeps {P : State → Prop}
    (link : ∀ (s : State) (p : Parser) (q : List Chunk), P s →
      P { s with lnk := { s.lnk with parser := p, pipe := q } })
    (request : ∀ (c : Instr) (s : State), P s → P (serve c s)) (s : State) (h : P s) : P (readPipe s) := by
  have hbyte : ∀ key b (s : State), P s → P (readByte key b s) := by
    intro key b s h
    unfold readByte
    simp only
    split
    · exact request _ _ (link s _ s.lnk.pipe h)
    · exact link s _ s.lnk.pipe h
  have hbytes : ∀ key bs (s : State), P s → P (readBytes key bs s).2 := by
    intro key bs
    induction bs with
    | nil => exact fun s h => h
    | cons b bs ih =>
      intro s h
      unfold readBytes
      split
      · exact ih _ (hbyte key b s h)
      · exact h
  have hchunks : ∀ l (s : State), P s → P (readChunks l s) := by
    intro l
    induction l with
    | nil => exact fun s h => h
    | cons c rest ih =>
      intro s h
      unfold readChunks
      split
      · have := hbytes c.key c.bytes s h
        split <;> rename_i e <;> rw [e] at this
        · exact ih _ this
        · exact link _ _ _ this
      · exact link s s.lnk.parser _ h
  exact hchunks _ _ (link s s.lnk.parser _ h)

/-- The parser over several bytes none of which completes a frame. -/
theorem readBytes_quiet (key : Option Bool) : ∀ (bs rest : List Byte) (s : State), readsRequests s = true →
    (∀ k < bs.length, ∀ b, bs[k]? = some b → (feed ((bs.take k).foldl (fun q b => (feed q b).1) s.lnk.parser) b).2 = none) →
    readBytes key (bs ++ rest) s =
      readBytes key rest { s with lnk := { s.lnk with parser := bs.foldl (fun q b => (feed q b).1) s.lnk.parser } } := by
  intro bs
  induction bs with
  | nil => intro rest s h hq; rfl
  | cons b bs ih =>
    intro rest s h hq
    have h0 : (feed s.lnk.parser b).2 = none := hq 0 (by simp) b rfl
    have hb : readByte key b s = { s with lnk := { s.lnk with parser := (feed s.lnk.parser b).1 } } := by
      simp [readByte, h0, State.withLnk]
    simp only [List.cons_append, readBytes, h, if_true, hb]
    rw [ih rest _ (by simpa [readsRequests] using h)]
    · rfl
    · intro k hk c hc
      have := hq (k + 1) (by simp; omega) c (by simpa using hc)
      simpa using this

end Sys2Proof.Machine
end

