-- ==== Sys2Proof/Laws/Store.lean ====
section
/-!
SUPPORT. The laws of the keyed tables and of the image store's bytes: a read after a write gives the value written,
every other place reads as before, and a write keeps the canonical form.
-/

namespace Sys2Proof.Machine

variable {α : Type}

/-! ## Tables -/

theorem tabGet_none_of_ne {k : Nat} {l : List (Nat × α)} (h : ∀ p ∈ l, p.1 ≠ k) : tabGet k l = none := by
  induction l with
  | nil => rfl
  | cons p t ih =>
    obtain ⟨j, v⟩ := p
    have hj : j ≠ k := h (j, v) (by simp)
    simp [tabGet, hj, ih fun q hq => h q (List.mem_cons_of_mem _ hq)]

theorem tabGet_append (k : Nat) (l m : List (Nat × α)) : tabGet k (l ++ m) = (tabGet k l).or (tabGet k m) := by
  induction l with
  | nil => simp [tabGet]
  | cons p t ih =>
    obtain ⟨j, v⟩ := p
    by_cases hj : j = k <;> simp [tabGet, hj, ih]

/-- A filter on keys keeps what stands at a key that passes. -/
theorem tabGet_filter {k : Nat} {q : Nat → Bool} (hk : q k = true) (l : List (Nat × α)) :
    tabGet k (l.filter fun c => q c.1) = tabGet k l := by
  induction l with
  | nil => rfl
  | cons p t ih =>
    obtain ⟨j, v⟩ := p
    by_cases hj : j = k
    · subst hj; simp [List.filter, hk, tabGet]
    · by_cases hq : q j = true
      · simp [List.filter, hq, tabGet, hj, ih]
      · simp [List.filter, hq, tabGet, hj, ih]

/-- A filter on keys leaves nothing at a key that fails. -/
theorem tabGet_filter_none {k : Nat} {q : Nat → Bool} (hk : q k = false) (l : List (Nat × α)) :
    tabGet k (l.filter fun c => q c.1) = none := by
  apply tabGet_none_of_ne
  intro p hp hpk
  have := (List.mem_filter.mp hp).2
  simp [hpk, hk] at this

@[simp] theorem tabGet_tabSet_self (k : Nat) (v : α) (l : List (Nat × α)) : tabGet k (tabSet k v l) = some v := by
  induction l with
  | nil => simp [tabSet, tabGet]
  | cons p t ih =>
    obtain ⟨j, w⟩ := p
    by_cases h1 : k < j
    · simp [tabSet, h1, tabGet]
    · by_cases h2 : k = j
      · simp [tabSet, h2, tabGet]
      · simp [tabSet, h1, h2, tabGet, Ne.symm h2, ih]

@[simp] theorem tabGet_tabSet_ne {k n : Nat} (h : n ≠ k) (v : α) (l : List (Nat × α)) :
    tabGet n (tabSet k v l) = tabGet n l := by
  induction l with
  | nil => simp [tabSet, tabGet, Ne.symm h]
  | cons p t ih =>
    obtain ⟨j, w⟩ := p
    by_cases h1 : k < j
    · simp [tabSet, h1, tabGet, Ne.symm h]
    · by_cases h2 : k = j
      · subst h2; simp [tabSet, tabGet, Ne.symm h]
      · have hs : tabSet k v ((j, w) :: t) = (j, w) :: tabSet k v t := by simp [tabSet, h1, h2]
        rw [hs]
        by_cases h3 : j = n <;> simp [tabGet, h3, ih]

theorem tabGet_tabMap (k n : Nat) (f : α → α) (l : List (Nat × α)) :
    tabGet n (tabMap k f l) = if n = k then (tabGet n l).map f else tabGet n l := by
  induction l with
  | nil => simp [tabMap, tabGet]
  | cons p t ih =>
    obtain ⟨j, v⟩ := p
    by_cases h1 : j = n
    · subst h1; by_cases h2 : j = k <;> simp [tabMap, tabGet, h2]
    · simp [tabMap, tabGet, h1, ih]

theorem tabGet_tabErase (k n : Nat) (l : List (Nat × α)) :
    tabGet n (tabErase k l) = if n = k then none else tabGet n l := by
  induction l with
  | nil => simp [tabErase, tabGet]
  | cons p t ih =>
    obtain ⟨j, v⟩ := p
    by_cases h1 : j = k
    · subst h1; by_cases h2 : n = j
      · subst h2; simpa [tabErase] using ih
      · simp [tabErase, ih, h2, tabGet, Ne.symm h2]
    · by_cases h2 : j = n
      · subst h2; simp [tabErase, h1, tabGet]
      · simp [tabErase, h1, tabGet, h2, ih]

/-! ## Rising keys -/

theorem tabWf_iff (l : List (Nat × α)) : tabWf l = true ↔ l.Pairwise fun p q => p.1 < q.1 := by
  induction l with
  | nil => simp [tabWf]
  | cons p t ih => obtain ⟨j, v⟩ := p; simp [tabWf, ih]

/-! ## Bytes -/

theorem storeCells_keys (a : Nat) (bs : List Byte) : ∀ p ∈ storeCells a bs, a ≤ p.1 ∧ p.1 < a + bs.length := by
  induction bs generalizing a with
  | nil => simp [storeCells]
  | cons b bs ih =>
    intro p hp
    have step : p ∈ storeCells (a + 1) bs → a ≤ p.1 ∧ p.1 < a + (b :: bs).length := by
      intro h; have := ih (a + 1) p h; simp only [List.length_cons]; omega
    by_cases hb : b = storeBlank
    · exact step (by simpa [storeCells, hb] using hp)
    · rcases (by simpa [storeCells, hb] using hp : p = (a, b) ∨ p ∈ storeCells (a + 1) bs) with rfl | h
      · simp
      · exact step h

theorem storeCells_pairwise (a : Nat) (bs : List Byte) : (storeCells a bs).Pairwise fun p q => p.1 < q.1 := by
  induction bs generalizing a with
  | nil => simp [storeCells]
  | cons b bs ih =>
    by_cases hb : b = storeBlank
    · simpa [storeCells, hb] using ih (a + 1)
    · simp only [storeCells, hb, if_false, List.pairwise_cons]
      exact ⟨fun q hq => by have := storeCells_keys _ _ q hq; simp; omega, ih (a + 1)⟩

theorem storeCells_listed (a : Nat) (bs : List Byte) : ∀ p ∈ storeCells a bs, p.2 ≠ storeBlank := by
  induction bs generalizing a with
  | nil => simp [storeCells]
  | cons b bs ih =>
    intro p hp
    by_cases hb : b = storeBlank
    · exact ih (a + 1) p (by simpa [storeCells, hb] using hp)
    · rcases (by simpa [storeCells, hb] using hp : p = (a, b) ∨ p ∈ storeCells (a + 1) bs) with rfl | h
      · exact hb
      · exact ih (a + 1) p h

theorem storeCells_read (a : Nat) (bs : List Byte) (k : Nat) :
    (tabGet (a + k) (storeCells a bs)).getD storeBlank = (bs[k]?).getD storeBlank := by
  induction bs generalizing a k with
  | nil => simp [storeCells, tabGet]
  | cons b bs ih =>
    cases k with
    | zero =>
      have hnone : tabGet a (storeCells (a + 1) bs) = none :=
        tabGet_none_of_ne fun p hp => by have := storeCells_keys _ _ p hp; omega
      by_cases hb : b = storeBlank
      · simp [storeCells, hb, hnone]
      · simp [storeCells, hb, tabGet]
    | succ k =>
      have h := ih (a + 1) k
      rw [show a + 1 + k = a + (k + 1) by omega] at h
      by_cases hb : b = storeBlank
      · simpa [storeCells, hb] using h
      · simpa [storeCells, hb, tabGet, show a ≠ a + (k + 1) by omega] using h

/-- A byte after a write: the byte written inside the written range, the old byte outside. -/
theorem storeRead_storeWrite (a : Nat) (bs : List Byte) (m : List Host.Cell) (x : Nat) :
    storeRead (storeWrite a bs m) x =
      if a ≤ x ∧ x < a + bs.length then (bs[x - a]?).getD storeBlank else storeRead m x := by
  unfold storeRead storeWrite
  rw [tabGet_append, tabGet_append]
  by_cases h1 : x < a
  · have hc : tabGet x (storeCells a bs) = none :=
      tabGet_none_of_ne fun p hp => by have := storeCells_keys _ _ p hp; omega
    rw [tabGet_filter (q := fun n => decide (n < a)) (by simp [h1]), hc,
      tabGet_filter_none (q := fun n => decide (a + bs.length ≤ n)) (by simp; omega)]
    simp [show ¬ a ≤ x by omega]
  · rw [tabGet_filter_none (q := fun n => decide (n < a)) (by simpa using h1)]
    by_cases h2 : x < a + bs.length
    · rw [tabGet_filter_none (q := fun n => decide (a + bs.length ≤ n)) (by simpa using h2)]
      have := storeCells_read a bs (x - a)
      rw [show a + (x - a) = x by omega] at this
      simp [show a ≤ x by omega, h2, this]
    · have hc : tabGet x (storeCells a bs) = none :=
        tabGet_none_of_ne fun p hp => by have := storeCells_keys _ _ p hp; omega
      rw [tabGet_filter (q := fun n => decide (a + bs.length ≤ n)) (by simpa using h2), hc]
      simp [h2]

/-- A write keeps the canonical form of the store. -/
theorem storeWrite_wf (a : Nat) (bs : List Byte) {m : List Host.Cell} (h : Memory.wf m = true) :
    Memory.wf (storeWrite a bs m) = true := by
  simp only [Memory.wf, Bool.and_eq_true, tabWf_iff, List.all_eq_true] at h ⊢
  obtain ⟨hs, hb⟩ := h
  constructor
  · unfold storeWrite
    rw [List.pairwise_append, List.pairwise_append]
    refine ⟨⟨hs.filter _, storeCells_pairwise a bs, ?_⟩, hs.filter _, ?_⟩
    · intro p hp q hq
      have h1 := (List.mem_filter.mp hp).2
      have h2 := storeCells_keys _ _ q hq
      simp at h1; omega
    · intro p hp q hq
      have h2 := (List.mem_filter.mp hq).2
      simp at h2
      rcases List.mem_append.mp hp with hp | hp
      · have h1 := (List.mem_filter.mp hp).2
        simp at h1; omega
      · have h1 := storeCells_keys _ _ p hp; omega
  · intro p hp
    unfold storeWrite at hp
    rcases List.mem_append.mp hp with hp | hp
    · rcases List.mem_append.mp hp with hp | hp
      · exact hb p (List.mem_filter.mp hp).1
      · simpa using storeCells_listed _ _ p hp
    · exact hb p (List.mem_filter.mp hp).1

/-- The store of the machine right after power-on is in its canonical form. -/
theorem reset_store_wf : Memory.wf State.reset.ims.store = true := rfl

end Sys2Proof.Machine
end

