-- ==== Sys2Proof/Laws/Sorting.lean ====
section
/-!
SUPPORT. What the sort of garments may change outside ORD and IMS, said once: the notice list, the recure list, the
diverter with its hold, the bins, the alarm records, and the records of the garments that are sorted (R160, R177 to R182).
-/

namespace Sys2Proof.Machine

/-- `t` is `s` but for what a sort of the garments `ns` may change in LNK, CAR, EXS and ALM. -/
structure SortOnly (ns : List Nat) (s t : State) : Prop where
  notices : NotesMore s t
  exs : { t.exs with
    recure := s.exs.recure, diverter := s.exs.diverter, hold := s.exs.hold, bins := s.exs.bins } = s.exs
  car : { t.car with garments := s.car.garments } = s.car
  alm : { t.alm with alarms := s.alm.alarms } = s.alm
  others : ∀ m, m ∉ ns → garment m t = garment m s

theorem SortOnly.refl (ns : List Nat) (s : State) : SortOnly ns s s :=
  ⟨NotesMore.refl s, rfl, rfl, rfl, fun _ _ => rfl⟩

theorem SortOnly.trans {ns : List Nat} {s t u : State} (h : SortOnly ns s t) (k : SortOnly ns t u) :
    SortOnly ns s u := by
  refine ⟨h.notices.trans k.notices, ?_, ?_, ?_, fun m hm => (k.others m hm).trans (h.others m hm)⟩
  · have a := h.exs; have b := k.exs
    generalize u.exs = x at *; generalize t.exs = y at *
    rw [← a, ← b]
  · have a := h.car; have b := k.car
    generalize u.car = x at *; generalize t.car = y at *
    rw [← a, ← b]
  · have a := h.alm; have b := k.alm
    generalize u.alm = x at *; generalize t.alm = y at *
    rw [← a, ← b]

/-- An operation that leaves LNK, CAR, EXS and ALM as they are. -/
theorem SortOnly.of_eq (ns : List Nat) {s t : State} (hl : t.lnk = s.lnk) (hc : t.car = s.car) (he : t.exs = s.exs)
    (ha : t.alm = s.alm) : SortOnly ns s t :=
  ⟨NotesMore.of_eq hl, by rw [he], by rw [hc], by rw [ha], fun m _ => by rw [garment, garment, hc]⟩

/-- An operation that writes ORD and IMS alone. -/
theorem SortOnly.of_touches (ns : List Nat) {s t : State} (h : Touches [.ord, .ims] s t) : SortOnly ns s t :=
  .of_eq ns (h.lnk rfl) (h.car rfl) (h.exs rfl) (h.alm rfl)

theorem SortOnly.mono {ns ms : List Nat} {s t : State} (h : SortOnly ns s t) (k : ∀ n ∈ ns, n ∈ ms) :
    SortOnly ms s t :=
  ⟨h.notices, h.exs, h.car, h.alm, fun m hm => h.others m fun e => hm (k m e)⟩

theorem note_sort (ns : List Nat) (r : Ref) (s : State) : SortOnly ns s (note r s) :=
  ⟨note_more r s, rfl, rfl, rfl, fun _ _ => rfl⟩

theorem setBin_sort (ns : List Nat) (n : Nat) (b : Bin) (s : State) : SortOnly ns s (setBin n b s) :=
  ⟨⟨noteIn_prefix _ _, rfl⟩, rfl, rfl, rfl, fun _ _ => rfl⟩

theorem withGarment_sort (n : Nat) (f : Garment → Garment) (s : State) : SortOnly [n] s (withGarment n f s) :=
  ⟨NotesMore.of_eq rfl, rfl, rfl, rfl, fun m hm => by
    have hm : m ≠ n := by simpa using hm
    simp [garment, withGarment, tabGet_tabMap, hm]⟩

theorem noteAlarm_sort (ns : List Nat) (i : Nat) (s : State) : SortOnly ns s (noteAlarm i s) := by
  unfold noteAlarm
  split
  · exact .refl ns s
  · exact note_sort ns _ s

theorem onset_sort (ns : List Nat) (i : Nat) (momentary : Bool) (s : State) : SortOnly ns s (onset i momentary s) := by
  unfold onset
  refine .trans ?_ (noteAlarm_sort ns i _)
  exact ⟨NotesMore.of_eq rfl, rfl, rfl, rfl, fun _ _ => rfl⟩

/-! ## ORD -/

theorem dequeue_sort (ns : List Nat) (seq : Nat) (u : UnitRec) (s : State) : SortOnly ns s (dequeue seq u s) :=
  .of_touches ns (dequeue_frame seq u s)

theorem enqueue_sort (ns : List Nat) (seq : Nat) (u : UnitRec) (s : State) : SortOnly ns s (enqueue seq u s) :=
  .of_touches ns (enqueue_frame seq u s)

theorem withUnit_sort (ns : List Nat) (seq : Nat) (f : UnitRec → UnitRec) (s : State) :
    SortOnly ns s (withUnit seq f s) :=
  .of_eq ns rfl rfl rfl rfl

theorem withOrder_sort (ns : List Nat) (slot : Nat) (f : Order → Order) (s : State) :
    SortOnly ns s (withOrder slot f s) :=
  .of_eq ns rfl rfl rfl rfl

theorem withOrd_sort (ns : List Nat) (f : Ord → Ord) (s : State) : SortOnly ns s (s.withOrd f) :=
  .of_eq ns rfl rfl rfl rfl

theorem moveUnit_sort (ns : List Nat) (seq : Nat) (st : UnitState) (s : State) : SortOnly ns s (moveUnit seq st s) := by
  unfold moveUnit
  repeat' first
    | exact .refl ns _
    | with_reducible refine .trans ?_ (note_sort ns _ _)
    | with_reducible refine .trans ?_ (withOrder_sort ns _ _ _)
    | with_reducible refine .trans ?_ (withUnit_sort ns _ _ _)
    | with_reducible refine .trans ?_ (enqueue_sort ns _ _ _)
    | with_reducible refine .trans ?_ (dequeue_sort ns _ _ _)
    | split

theorem dropUnit_sort (ns : List Nat) (seq : Nat) (s : State) : SortOnly ns s (dropUnit seq s) := by
  unfold dropUnit
  repeat' first
    | exact .refl ns _
    | with_reducible refine .trans ?_ (note_sort ns _ _)
    | with_reducible refine .trans ?_ (withOrder_sort ns _ _ _)
    | with_reducible refine .trans ?_ (withOrd_sort ns _ _)
    | with_reducible refine .trans ?_ (dequeue_sort ns _ _ _)
    | split

theorem SortOnly.foldl {β : Type} (ns : List Nat) {f : State → β → State} (h : ∀ a b, SortOnly ns a (f a b))
    (l : List β) (s : State) : SortOnly ns s (l.foldl f s) := by
  induction l generalizing s with
  | nil => exact .refl ns s
  | cons b l ih => exact (h s b).trans (ih _)

theorem retire_sort (ns : List Nat) (slot : Nat) (s : State) : SortOnly ns s (retire slot s) := by
  unfold retire
  refine .trans ?_ (note_sort ns _ _)
  refine .trans ?_ (withOrder_sort ns _ _ _)
  refine .trans ?_ (withOrd_sort ns _ _)
  refine SortOnly.foldl ns (fun a b => ?_) _ s
  repeat' first
    | exact .refl ns _
    | with_reducible exact dequeue_sort ns _ _ _
    | split

theorem retireCancelled_sort (ns : List Nat) (slot : Nat) (s : State) : SortOnly ns s (retireCancelled slot s) := by
  unfold retireCancelled
  split
  · exact .refl ns s
  · dsimp only
    split
    · exact (retire_sort ns slot s).trans (setBin_sort ns _ _ _)
    · exact retire_sort ns slot s

theorem removeInLine_sort (ns : List Nat) (slot seq : Nat) (s : State) : SortOnly ns s (removeInLine slot seq s) := by
  unfold removeInLine
  dsimp only
  refine (dropUnit_sort ns seq s).trans ?_
  split
  · split
    · exact retireCancelled_sort ns slot _
    · exact .refl ns _
  · exact .refl ns _

theorem completeOrder_sort (ns : List Nat) (slot : Nat) (s : State) : SortOnly ns s (completeOrder slot s) := by
  unfold completeOrder
  repeat' first
    | exact .refl ns _
    | with_reducible refine .trans ?_ (setBin_sort ns _ _ _)
    | with_reducible refine .trans ?_ (retire_sort ns _ _)
    | with_reducible refine .trans ?_ (note_sort ns _ _)
    | with_reducible refine .trans ?_ (withOrder_sort ns _ _ _)
    | split

theorem classUnit_sort (ns : List Nat) (seq : Nat) (c : UnitClass) (s : State) :
    SortOnly ns s (classUnit seq c s) :=
  .of_touches ns (Touches.step (Touches.refl _ s) (classUnit_frame seq c s) (by decide))

theorem reprintUnit_sort (ns : List Nat) (slot seq : Nat) (s : State) : SortOnly ns s (reprintUnit slot seq s) := by
  unfold reprintUnit
  repeat' first
    | exact .refl ns _
    | with_reducible refine .trans ?_ (moveUnit_sort ns _ _ _)
    | with_reducible refine .trans ?_ (classUnit_sort ns _ _ _)
    | with_reducible refine .trans ?_ (withOrder_sort ns _ _ _)
    | split

/-- A sort report changes neither CAR nor ALM, of LNK the notice list alone, and of EXS the bins alone. -/
theorem sortReport_sort (ns : List Nat) (r : Report) (g : Garment) (s : State) : SortOnly ns s (sortReport r g s) := by
  unfold sortReport
  split
  · exact .refl ns s
  · split
    · exact .refl ns s
    · split
      · exact removeInLine_sort ns _ _ s
      · split
        · exact (moveUnit_sort ns _ _ s).trans (completeOrder_sort ns _ _)
        · exact reprintUnit_sort ns _ _ s
        · exact .refl ns s

theorem reportSort_sort (ns : List Nat) (n : Nat) (r : Report) (s : State) : SortOnly ns s (reportSort n r s) := by
  unfold reportSort
  split
  · exact sortReport_sort ns r _ s
  · exact .refl ns s

/-! ## EXS -/

theorem sortRecord_sort (n : Nat) (f : Garment → Garment) (s : State) : SortOnly [n] s (sortRecord n f s) :=
  (withGarment_sort n _ s).trans (note_sort [n] _ _)

theorem setDiverter_sort (ns : List Nat) (r : Route) (s : State) : SortOnly ns s (setDiverter r s) :=
  ⟨NotesMore.of_eq rfl, rfl, rfl, rfl, fun _ _ => rfl⟩

theorem sortAtDiverter_sort (n : Nat) (r : Route) (f : Garment → Garment) (s : State) :
    SortOnly [n] s (sortAtDiverter n r f s) :=
  (sortRecord_sort n _ s).trans (setDiverter_sort [n] r _)

theorem removeRider_sort (ns : List Nat) (n : Nat) (s : State) : SortOnly ns s (removeRider n s) :=
  .of_eq ns rfl rfl rfl rfl

/-- A garment sorted MISSING (R181). -/
theorem sortMissing_sort (n : Nat) (s : State) : SortOnly [n] s (sortMissing n s) :=
  ((sortRecord_sort n _ s).trans (removeRider_sort [n] n _)).trans (reportSort_sort [n] n _ _)

theorem sortToBin_sort (n slot : Nat) (o : Order) (s : State) : SortOnly [n] s (sortToBin n slot o s) := by
  unfold sortToBin
  split
  · exact ((sortAtDiverter_sort n _ _ s).trans (setBin_sort [n] _ _ _)).trans (reportSort_sort [n] n _ _)
  · split
    · exact ((((sortAtDiverter_sort n _ _ s).trans (setBin_sort [n] _ _ _)).trans (withOrder_sort [n] slot _ _)).trans
        (note_sort [n] _ _)).trans (reportSort_sort [n] n _ _)
    · exact ((((sortAtDiverter_sort n _ _ s).trans (withOrder_sort [n] slot _ _)).trans (note_sort [n] _ _)).trans
        (reportSort_sort [n] n _ _)).trans (onset_sort [n] _ _ _)

theorem sendToRecure_sort (n : Nat) (s : State) : SortOnly [n] s (sendToRecure n s) :=
  (withGarment_sort n _ s).trans ⟨NotesMore.of_eq rfl, rfl, rfl, rfl, fun _ _ => rfl⟩

/-- A garment routed at the diverter (R177). -/
theorem routeGarment_sort (n slot : Nat) (o : Order) (g : Garment) (s : State) :
    SortOnly [n] s (routeGarment n slot o g s) := by
  have k : ∀ r route f, SortOnly [n] s (reportSort n r (sortAtDiverter n route f s)) := fun r route f =>
    (sortAtDiverter_sort n route f s).trans (reportSort_sort [n] n r _)
  unfold routeGarment
  repeat' split
  all_goals first
    | exact k _ _ _
    | exact sortToBin_sort n slot o s
    | exact sendToRecure_sort n s

/-- A garment at the diverter (R160): it leaves the tunnel list, and the sort changes the rest. -/
theorem reachDiverter_sort (n : Nat) (s : State) : SortOnly [n] s (reachDiverter n s) := by
  unfold reachDiverter
  dsimp only
  repeat' first
    | exact .refl [n] _
    | with_reducible refine .trans ?_ (routeGarment_sort n _ _ _ _)
    | with_reducible refine .trans ?_ (withGarment_sort n _ _)
    | with_reducible refine .trans ?_ (removeRider_sort [n] n _)
    | split

/-- CTC at the diverter (R160): the garment has left the tunnel list, and nothing else of CTC has changed. -/
theorem reachDiverter_ctc (n : Nat) (s : State) : (reachDiverter n s).ctc = (removeRider n s).ctc := by
  have hr : ∀ slot o g t, (routeGarment n slot o g t).ctc = t.ctc := by
    intro slot o g t
    exact (routeGarment_frame n slot o g t).ctc rfl
  unfold reachDiverter
  dsimp only
  split
  · split
    · rw [hr]; rfl
    · rfl
  · rfl

end Sys2Proof.Machine
end

