-- ==== Sys2Proof/Laws/Units.lean ====
section
/-!
SUPPORT. What the operations of ORD on one unit and one order do: the unit and order tables, the notice list, and the
queued-unit counts of the images.
-/

namespace Sys2Proof.Machine

/-- `t` is `s` but for the queued-unit counts of its images and the parts of ORD and of the notice list. -/
structure Refs (s t : State) : Prop where
  rest : { t with lnk := s.lnk, ord := s.ord, ims := s.ims } = s
  ims : { t.ims with images := s.ims.images } = s.ims
  images : t.ims.images.map (fun p => (p.1, { p.2 with queuedRefs := 0 })) =
    s.ims.images.map fun p => (p.1, { p.2 with queuedRefs := 0 })

theorem Refs.refl (s : State) : Refs s s := ⟨rfl, rfl, rfl⟩
theorem Refs.trans {s t u : State} (h : Refs s t) (k : Refs t u) : Refs s u := by
  obtain ⟨a, b, c⟩ := h
  obtain ⟨d, e, f⟩ := k
  refine ⟨?_, ?_, f.trans c⟩
  · have : u = { t with lnk := u.lnk, ord := u.ord, ims := u.ims } := by rw [← d]
    rw [this]; exact a
  · generalize u.ims = x at *; generalize t.ims = y at *; rw [← b, ← e]
theorem Refs.of {s t : State} (h : { t with lnk := s.lnk, ord := s.ord } = s) : Refs s t := by
  have : t = { s with lnk := t.lnk, ord := t.ord } := by rw [← h]
  rw [this]; exact ⟨rfl, rfl, rfl⟩

theorem tabMap_refs (slot : Nat) (f : Image →
    Image) (hf : ∀ i, { f i with queuedRefs := 0 } = { i with queuedRefs := 0 }) (l : List (Nat × Image)) :
   (tabMap slot f l).map (fun p => (p.1, { p.2 with queuedRefs := 0 })) = l.map fun p => (p.1, { p.2 with queuedRefs := 0 }) := by
  induction l with
  | nil => rfl
  | cons p l ih => obtain ⟨j, v⟩ := p; simp only [tabMap, List.map_cons, ih]; split <;> simp [hf]
theorem withImageId_refs (id : Nat) (f : Image →
    Image) (hf : ∀ i, { f i with queuedRefs := 0 } =
    { i with queuedRefs := 0 }) (s : State) : Refs s (withImageId id f s) ∧ (withImageId id f s).lnk = s.lnk ∧
    (withImageId id f s).ord = s.ord := by
  unfold withImageId; split
  · exact ⟨⟨rfl, rfl, tabMap_refs _ _ hf _⟩, rfl, rfl⟩
  · exact ⟨Refs.refl _, rfl, rfl⟩
theorem handRef_refs (id) (s : State) : Refs s (handRef id s) ∧ (handRef id s).lnk = s.lnk ∧
    (handRef id s).ord = s.ord := by
  unfold handRef; split
  · apply withImageId_refs; intro i; rfl
  · exact ⟨Refs.refl _, rfl, rfl⟩
theorem takeRef_refs (id) (s : State) : Refs s (takeRef id s) ∧ (takeRef id s).lnk = s.lnk ∧
    (takeRef id s).ord = s.ord := by
  unfold takeRef; split
  · apply withImageId_refs; intro i; rfl
  · exact ⟨Refs.refl _, rfl, rfl⟩
theorem enqueue_refs (seq u) (s : State) : Refs s (enqueue seq u s) ∧ (enqueue seq u s).lnk = s.lnk ∧
    (enqueue seq u s).ord = { s.ord with queue := queueInsert { cls := u.cls, seq := seq } s.ord.queue } := by
  unfold enqueue
  obtain ⟨a, b, c⟩ := handRef_refs (unitImage u s) (s.withOrd fun o => { o with queue := queueInsert { cls := u.cls, seq := seq } o.queue })
  exact ⟨(Refs.of rfl).trans a, b, c⟩
theorem dequeue_refs (seq u) (s : State) : Refs s (dequeue seq u s) ∧ (dequeue seq u s).lnk = s.lnk ∧
    (dequeue seq u s).ord = { s.ord with queue := queueErase seq s.ord.queue } := by
  unfold dequeue
  obtain ⟨a, b, c⟩ := takeRef_refs (unitImage u s) (s.withOrd fun o => { o with queue := queueErase seq o.queue })
  exact ⟨(Refs.of rfl).trans a, b, c⟩

/-- Everything that a change of a unit's state does. -/
theorem moveUnit_does (seq : Nat) (st : UnitState) (u : UnitRec) (s : State) (h : tabGet seq s.ord.units = some u) :
   Refs s (moveUnit seq st s) ∧ (moveUnit seq st s).lnk = (noted (.order u.slot) s).lnk ∧ (moveUnit seq st s).ord.units = tabMap seq (fun u => { u with state := st }) s.ord.units ∧
   (moveUnit seq st s).ord.orders = tabMap u.slot (fun o => { o with counts := (o.counts.sub u.state).add st }) s.ord.orders ∧ (moveUnit seq st s).ord.seq = s.ord.seq := by
  obtain ⟨a, ha⟩ : ∃ a, a = (if u.state = .queued then dequeue seq u s else s) := ⟨_, rfl⟩
  obtain ⟨b, hb⟩ : ∃ b, b = withOrder u.slot (fun o => { o with counts := (o.counts.sub u.state).add st }) (withUnit seq (fun u => { u with state := st }) a) := ⟨_, rfl⟩
  obtain ⟨c, hc⟩ : ∃ c, c = (if st = .queued then enqueue seq u b else b) := ⟨_, rfl⟩
  have e : moveUnit seq st s = note (.order u.slot) c := by
    unfold moveUnit; simp only [h]; rw [hc, hb, ha]
  have A : Refs s a ∧ a.lnk = s.lnk ∧ a.ord.units = s.ord.units ∧ a.ord.orders = s.ord.orders ∧ a.ord.seq = s.ord.seq := by
    rw [ha]; split
    · obtain ⟨x, y, z⟩ := dequeue_refs seq u s; rw [z]; exact ⟨x, y, rfl, rfl, rfl⟩
    · exact ⟨Refs.refl _, rfl, rfl, rfl, rfl⟩
  have B : Refs a b ∧ b.lnk = a.lnk ∧ b.ord.units = tabMap seq (fun u => { u with state := st }) a.ord.units ∧ b.ord.orders = tabMap u.slot (fun o => { o with counts := (o.counts.sub u.state).add st }) a.ord.orders ∧ b.ord.seq = a.ord.seq := by
    rw [hb]; exact ⟨Refs.of rfl, rfl, rfl, rfl, rfl⟩
  have C : Refs b c ∧ c.lnk = b.lnk ∧ c.ord.units = b.ord.units ∧ c.ord.orders = b.ord.orders ∧ c.ord.seq = b.ord.seq := by
    rw [hc]; split
    · obtain ⟨x, y, z⟩ := enqueue_refs seq u b; rw [z]; exact ⟨x, y, rfl, rfl, rfl⟩
    · exact ⟨Refs.refl _, rfl, rfl, rfl, rfl⟩
  rw [e]
  refine ⟨((A.1.trans B.1).trans C.1).trans (Refs.of rfl), ?_, ?_, ?_, ?_⟩
  · show (noted (.order u.slot) c).lnk = _; simp only [noted]; rw [C.2.1, B.2.1, A.2.1]
  · show c.ord.units = _; rw [C.2.2.1, B.2.2.1, A.2.2.1]
  · show c.ord.orders = _; rw [C.2.2.2.1, B.2.2.2.1, A.2.2.2.1]
  · show c.ord.seq = _; rw [C.2.2.2.2, B.2.2.2.2, A.2.2.2.2]

/-- Everything that the removal of a unit does. -/
theorem dropUnit_does (seq : Nat) (u : UnitRec) (s : State) (h : tabGet seq s.ord.units = some u) :
   Refs s (dropUnit seq s) ∧ (dropUnit seq s).lnk = (noted (.order u.slot) s).lnk ∧ (dropUnit seq s).ord.units = tabErase seq s.ord.units ∧
   (dropUnit seq s).ord.orders = tabMap u.slot (fun o => { o with counts := o.counts.sub u.state }) s.ord.orders ∧ (dropUnit seq s).ord.seq = s.ord.seq := by
  obtain ⟨a, ha⟩ : ∃ a, a = (if u.state = .queued then dequeue seq u s else s) := ⟨_, rfl⟩
  have e : dropUnit seq s = note (.order u.slot) (withOrder u.slot (fun o => { o with counts := o.counts.sub u.state }) (a.withOrd fun o => { o with units := tabErase seq o.units })) := by
    unfold dropUnit; simp only [h]; rw [ha]
  have A : Refs s a ∧ a.lnk = s.lnk ∧ a.ord.units = s.ord.units ∧ a.ord.orders = s.ord.orders ∧ a.ord.seq = s.ord.seq := by
    rw [ha]; split
    · obtain ⟨x, y, z⟩ := dequeue_refs seq u s; rw [z]; exact ⟨x, y, rfl, rfl, rfl⟩
    · exact ⟨Refs.refl _, rfl, rfl, rfl, rfl⟩
  rw [e]
  refine ⟨A.1.trans (Refs.of rfl), ?_, ?_, ?_, ?_⟩
  · show (noted (.order u.slot) a).lnk = _; simp only [noted]; rw [A.2.1]
  · show tabErase seq a.ord.units = _; rw [A.2.2.1]
  · show tabMap _ _ a.ord.orders = _; rw [A.2.2.2.1]
  · exact A.2.2.2.2

/-- Everything that retiring an order does. -/
theorem retire_does (slot : Nat) (s : State) :
   Refs s (retire slot s) ∧ (retire slot s).lnk = (noted (.order slot) s).lnk ∧ (retire slot s).ord.units = s.ord.units.filter (fun p => p.2.slot != slot) ∧
   (retire slot s).ord.orders = tabMap slot (fun o => { o with withdrawn := true }) s.ord.orders ∧ (retire slot s).ord.seq = s.ord.seq := by
  have k : ∀ (l : List Nat) (s : State), 
    let t := l.foldl (fun t seq =>
    match tabGet seq t.ord.units with
    | some u => if u.state = .queued then dequeue seq u t else t
    | none => t) s
    Refs s t ∧ t.lnk = s.lnk ∧ t.ord.units = s.ord.units ∧ t.ord.orders = s.ord.orders ∧ t.ord.seq = s.ord.seq := by
    intro l
    induction l with
    | nil => intro s; exact ⟨Refs.refl _, rfl, rfl, rfl, rfl⟩
    | cons q l ih =>
      intro s
      simp only [List.foldl_cons]
      have A : ∀ a : State, a = (match tabGet q s.ord.units with
    | some u => if u.state = .queued then dequeue q u s else s
    | none => s) → Refs s a ∧ a.lnk = s.lnk ∧ a.ord.units = s.ord.units ∧ a.ord.orders = s.ord.orders ∧ a.ord.seq = s.ord.seq := by
        rintro a rfl
        split
        · split
          · rename_i u _ _; obtain ⟨x, y, z⟩ := dequeue_refs q u s; rw [z]; exact ⟨x, y, rfl, rfl, rfl⟩
          · exact ⟨Refs.refl _, rfl, rfl, rfl, rfl⟩
        · exact ⟨Refs.refl _, rfl, rfl, rfl, rfl⟩
      obtain ⟨a1, a2, a3, a4, a5⟩ := A _ rfl
      obtain ⟨b1, b2, b3, b4, b5⟩ := ih (match tabGet q s.ord.units with
    | some u => if u.state = .queued then dequeue q u s else s
    | none => s)
      exact ⟨a1.trans b1, b2.trans a2, b3.trans a3, b4.trans a4, b5.trans a5⟩
  obtain ⟨b1, b2, b3, b4, b5⟩ := k (unitsOf slot s) s
  unfold retire
  refine ⟨b1.trans (Refs.of rfl), ?_, ?_, ?_, ?_⟩
  · show noteIn _ _ |> fun n => { (_ : Lnk) with notices := n } = _; simp only [noted]; exact congrArg (fun l : Lnk => { l with notices := noteIn (.order slot) l.notices }) b2
  · exact congrArg (List.filter fun p => p.2.slot != slot) b3
  · exact congrArg (tabMap slot _) b4
  · exact b5

theorem find_tabGet {α : Type} (q : Nat × α →
    Bool) (l : List (Nat × α)) (hw : tabWf l = true) (k : Nat) (v : α) (h : l.find? q = some (k, v)) : tabGet k l =
    some v ∧ q (k, v) = true := by
  have hq : q (k, v) = true := by simpa using List.find?_some h
  refine ⟨?_, hq⟩
  have hm := List.mem_of_find?_eq_some h
  clear h
  induction l with
  | nil => simp at hm
  | cons p l ih =>
    obtain ⟨j, w⟩ := p
    simp only [tabWf, Bool.and_eq_true, List.all_eq_true, decide_eq_true_eq] at hw
    simp only [tabGet]
    rcases List.mem_cons.mp hm with h | h
    · cases h; simp
    · have := hw.1 _ h; simp at this; rw [if_neg (by omega)]; exact ih hw.2 h
theorem tabGet_mem_iff {α : Type} (l : List (Nat × α)) (hw : tabWf l = true) (k : Nat) (v : α) : tabGet k l =
    some v ↔ (k, v) ∈ l := by
  induction l with
  | nil => simp [tabGet]
  | cons p l ih =>
    obtain ⟨j, w⟩ := p
    simp only [tabWf, Bool.and_eq_true, List.all_eq_true, decide_eq_true_eq] at hw
    simp only [tabGet, List.mem_cons]
    by_cases e : j = k
    · subst e; simp
      constructor
      · intro h; left; exact h.symm
      · rintro (h | h)
        · exact h.symm
        · have := hw.1 _ h; simp at this
    · simp [e, ih hw.2, Ne.symm e]
theorem notesMore_of_noted {s t : State} {r} (h : t.lnk = (noted r s).lnk) : NotesMore s t ∧ r ∈ t.lnk.notices := by
  unfold NotesMore; rw [h]; exact ⟨⟨noteIn_prefix _ _, rfl⟩, mem_noteIn _ _⟩

theorem Refs.garmentRefs {s t : State} (h : Refs s t) (k : Nat) : (tabGet k t.ims.images).map Image.garmentRefs =
    (tabGet k s.ims.images).map Image.garmentRefs := by
  have key : ∀ l : List (Nat × Image), (tabGet k l).map Image.garmentRefs = (tabGet k (l.map fun p => (p.1, { p.2 with queuedRefs := 0 }))).map Image.garmentRefs := by
    intro l; induction l with
    | nil => rfl
    | cons p l ih => obtain ⟨j, v⟩ := p; simp only [List.map_cons, tabGet]; split
                     · rfl
                     · exact ih
  rw [key, h.images, ← key]

theorem tabWf_filter {α : Type} (l : List (Nat × α)) (q) (h : tabWf l = true) : tabWf (l.filter q) = true := by
  rw [tabWf_iff] at *; exact h.filter q

/-- Everything that retiring a cancelled order does. -/
theorem retireCancelled_does (slot : Nat) (o : Order) (s : State) (h : tabGet slot s.ord.orders = some o) :
   let t := retireCancelled slot s
   Refs s { t with exs := s.exs } ∧ NotesMore s t ∧ .order slot ∈ t.lnk.notices ∧ t.ord.units = s.ord.units.filter (fun p => p.2.slot != slot) ∧
   t.ord.orders = tabMap slot (fun o => { o with withdrawn := true }) s.ord.orders ∧ 
   t.exs = (match o.bin with | some b => { s.exs with bins := s.exs.bins.set (b-1) .freed } | none => s.exs) := by
  intro t
  obtain ⟨a, b, c, d, e⟩ := retire_does slot s
  have g := notesMore_of_noted b
  have ex : (retire slot s).exs = s.exs := by have := congrArg State.exs a.rest; exact this
  have et : t = match o.bin with
    | some b => setBin b .freed (retire slot s)
    | none => retire slot s := by simp only [t, retireCancelled, h] <;> cases o.bin <;> rfl
  cases hb : o.bin with
  | none =>
    rw [hb] at et; simp only at et; rw [et]
    refine ⟨?_, g.1, g.2, c, d, ex⟩
    rw [show { retire slot s with exs := s.exs } = retire slot s by rw [← ex]]; exact a
  | some n =>
    rw [hb] at et; simp only at et; rw [et]
    have k : setBin n .freed (retire slot s) = noted (.bin n) { retire slot s with exs := { s.exs with bins := s.exs.bins.set (n-1) .freed } } := by
      unfold setBin; rw [note_noted]; unfold State.withExs; rw [ex]
    rw [k]
    have g2 : NotesMore (retire slot s) (noted (.bin n) { retire slot s with exs := { s.exs with bins := s.exs.bins.set (n-1) .freed } }) := ⟨noteIn_prefix _ _, rfl⟩
    refine ⟨?_, g.1.trans g2, g2.mem g.2, c, d, rfl⟩
    obtain ⟨r1, r2, r3⟩ := a
    exact ⟨congrArg (fun x : State => { x with exs := s.exs }) r1, r2, r3⟩

end Sys2Proof.Machine
end

