-- ==== Sys2Proof/Tests/Slice0.lean ====
section
/-!
SUPPORT. The model's own tests: a term that each check of WellFormed refuses, the manual's worked examples on single
operations, single steps on small states, and, for every statement with hypotheses, a state and operands that meet them
(`witness_<Name>`, clause by clause, at a boundary value where a clause has one).
-/

namespace Sys2Proof.Tests

open Sys2Proof.Machine

/-! ## Small states -/

/-- The machine after power-on with the device function configured. -/
def link : State := { State.reset with lnk := { Lnk.powerOn with configured := true } }

/-- `s` with its line in a state. -/
def inLine (l : LineState) (s : State) : State := { s with car := { s.car with line := l } }

/-- `s` with a reply waiting in the slot. -/
def busySlot : State := { link with lnk := { link.lnk with reply := some { kind := 0x81, tag := 0, body := [0] } } }

/-- Image 5: 16 by 16 dots of W, READY, on page 0. -/
def art : Image :=
  { id := 5, w := 16, h := 16, x0 := 0, y0 := 0, channels := 1, rush := false, state := .ready,
    planes := [.page 0 true], coverage := some .zero, queuedRefs := 1, garmentRefs := 1, printActive := false,
    removed := false }

/-- Order 7: two units of SKU 4100 on image 5. -/
def web : Order :=
  { id := 7, priority := .normal, state := .open_,
    items := [{ sku := 4100, image := 5, profile := 0, quantity := 2, reprints := 0 }], bin := none, split := false,
    counts := { waitImage := 0, queued := 1, inLine := 1, done := 0, failed := 0 }, withdrawn := false }

/-- The first unit of order 7, bound. -/
def unitA : UnitRec := { slot := 0, item := 0, index := 0, cls := .normal, state := .inLine }

/-- The second unit of order 7, queued. -/
def unitB : UnitRec := { slot := 0, item := 0, index := 1, cls := .normal, state := .queued }

/-- The garment of the first unit. -/
def tee : Garment :=
  { order := 7, item := 0, index := 0, sku := 4100, image := some 5, profile := .powerOn, stage := .loaded,
    location := .platen 0, defects := [], warnings := [], dose := 0, dwell := 0, strokes := [], d := 0, dReq := 0,
    dMax := 4000000, recures := 0, verification := none, outcome := none, route := none }

/-- Order 7 with its image, its units, and the garment of one of them under serial 1. -/
def stock : State :=
  { link with
    ord := { orders := [(0, web)], units := [(1, unitA), (2, unitB)], queue := [{ cls := .normal, seq := 2 }], seq := 2 }
    ims := { link.ims with images := [(0, art)], store := [(0, 0xFF)] }
    car := { link.car with garments := [(1, tee)], lastSerial := 1 } }

/-- `s` with garment 1 on the platen of a WORKING station. -/
def standing (st : Station) (s : State) : State :=
  setStation st { working := true, hold := .none } (holding st (.garment 1) s)

/-- `s` with garment 1 alone on the belt, at a travel, its record as given. -/
def riding (travel : Nat) (g : Garment) (s : State) : State :=
  { s with ctc := { s.ctc with tunnel := [{ serial := 1, travel := travel }] }, car := { s.car with garments := [(1, g)] } }

/-- `stock` with the image OPEN, CLOSING or DAMAGED in place of READY. -/
def imageIn (i : ImageState) (s : State) : State :=
  { s with ims := { s.ims with images := [(0, { art with state := i })] } }

/-- `s` with the record of alarm instance `i` as given. -/
def alarmIs (i : Nat) (a : Alarm) (s : State) : State :=
  { s with alm := { s.alm with alarms := s.alm.alarms.set i a } }

theorem link_reads : Reads link := ⟨rfl, rfl, rfl, .inl rfl⟩
theorem stock_reads : Reads stock := ⟨rfl, rfl, rfl, .inl rfl⟩
theorem stock_keyed : Keyed stock := ⟨rfl, rfl, rfl, rfl, rfl⟩
theorem stock_shaped : Shaped stock := ⟨rfl, rfl, rfl, rfl, rfl, rfl, rfl, by decide⟩

/-! ## WellFormed: each check refuses a term -/

theorem test_wf_config_value : (Instr.configSet 0 true [{ code := 1, index := 0, value := 4294967296 }]).wf = false := by decide
theorem test_wf_config_length :
    (Instr.configSet 0 true (List.replicate 256 { code := 1, index := 0, value := 0 })).wf = false := by decide +kernel
theorem test_wf_profile_id : (Instr.profileGet 0 256).wf = false := by decide
theorem test_wf_cure : (Instr.cureSet 0 (CureBody.mk 65536 0 0 0 0 0 0 0 0 0 0)).wf = false := by decide
theorem test_wf_spit : (Instr.spitSet 0 { period := 4, masks := [0, 0, 0, 0], counts := [0, 0, 0, 0, 0] }).wf = false := by decide
theorem test_wf_nozzle : (Instr.nozzleSet 0 [{ channel := 0, row := 0, first := 65536, count := 1, state := 0 }]).wf = false := by decide
theorem test_wf_nozzle_get : (Instr.nozzleGet 0 0 256).wf = false := by decide
theorem test_wf_image : (Instr.imageOpen 0 4294967296 16 16 0 0 1 0).wf = false := by decide
theorem test_wf_band : (Instr.band 0 256 0 0 []).wf = false := by decide
theorem test_wf_order_item : (Instr.orderAdd 0 1 0 [{ sku := 18446744073709551616, image := 0, profile := 0, quantity := 1 }]).wf = false := by decide
theorem test_wf_order_id : (Instr.orderGet 0 4294967296).wf = false := by decide
theorem test_wf_serial : (Instr.garmentGet 0 65536).wf = false := by decide
theorem test_wf_bin : (Instr.binClear 0 1 256).wf = false := by decide
theorem test_wf_alarm : (Instr.alarmAck 0 1 0 256).wf = false := by decide
theorem test_wf_header : (Instr.implausibleHeader 1 0 0 0).wf = false := by decide
theorem test_wf_guard : (Instr.guardChange 0 true).wf = false ∧ (Instr.guardChange 5 true).wf = false := by decide
theorem test_wf_lane : (Instr.valveDelayExpiry 8).wf = false ∧ (Instr.valveCloseExpiry 8).wf = false := by decide
theorem test_wf_reading : (Instr.flashSample { raw := 65536, fault := false }).wf = false ∧
    (Instr.tunnelSample { raw := 0, fault := false } { raw := 0, fault := false } { raw := 65536, fault := true }).wf = false := by
  decide

/-! ## The queue, the link and its frames -/

/-- No row of the opcode table has bits, so no word spells a command. -/
theorem test_no_word : decodeTableWord 8 1 = none := rfl

/-- The front command runs and leaves the rest of the queue. -/
theorem test_step_takes_front :
    step { link with pending := [.usbBusReset, .homeSensor] } = .next { State.reset with pending := [.homeSensor] } := rfl

/-- The CRC of the characters 123456789 is 0x29B1 (R213). -/
theorem test_crc : crc16 [0x31, 0x32, 0x33, 0x34, 0x35, 0x36, 0x37, 0x38, 0x39] = 0x29B1 := by decide +kernel

/-- The running values of the IDENT exchange of chapter 11. -/
theorem test_crc_running : crcByte 0xFFFF 0x01 = 0xF1D1 ∧ crcByte 0xF1D1 0x07 = 0x5ED9 ∧ crcByte 0x5ED9 0x00 = 0x623B ∧
    crcByte 0x623B 0x00 = 0x77E4 := by decide +kernel

/-- The IDENT request with tag 0x07 of that exchange is these eight bytes. -/
theorem test_ident_frame : frameBytes { kind := 0x01, tag := 0x07, body := [] } =
    [0xA5, 0x3C, 0x01, 0x07, 0x00, 0x00, 0x77, 0xE4] := by decide +kernel

/-- Read from HUNT they are IDENT with that tag. -/
theorem test_ident_read :
    commandOf false { kind := 0x01, tag := 0x07, body := [], crc := 0x77E4 } = some (.ident 0x07) := by decide +kernel

/-! ## The manual's worked examples -/

/-- Chapter 1, queue order: 70003 (RUSH 4) stands before 70001 (NORMAL 1, 2), and REPRINT 4 before RUSH 1. -/
theorem test_queue_order :
    queueInsert { cls := .rush, seq := 4 } [{ cls := .normal, seq := 1 }, { cls := .normal, seq := 2 }] =
      [{ cls := .rush, seq := 4 }, { cls := .normal, seq := 1 }, { cls := .normal, seq := 2 }] ∧
    queueInsert { cls := .reprint, seq := 4 } [{ cls := .rush, seq := 1 }, { cls := .rush, seq := 2 }] =
      [{ cls := .reprint, seq := 4 }, { cls := .rush, seq := 1 }, { cls := .rush, seq := 2 }] := by decide

/-- Chapter 2, loading: 21 bands of 1,000 lines, planes of 14,400 and 12,000 bytes, reserve range from page 7,680. -/
theorem test_plane_sizes : bandsOf 1000 = 21 ∧ planeSize 1200 1000 0 = 14400 ∧ planeSize 1200 1000 20 = 12000 ∧
    reserveFrom .sixteenth = 7680 := by decide

/-- Chapter 2, RLE: control byte 255 makes 129 bytes, 207 makes 81; a plane one run short does not decode. -/
theorem test_rle : planeData 1 210 [255, 0, 207, 0] = some (List.replicate 210 0) ∧ planeData 1 210 [255, 0] = none ∧
    planeData 1 210 [255, 0, 207] = none ∧ planeData 1 209 [255, 0, 207, 0] = none := by decide +kernel

/-- Chapter 3, CONFIG_SET: a shuttle speed of 1,800 mm/s is clamped to 1,500, and the reply is CLAMPED. -/
theorem test_setting_clamped : (applySetting { code := 8, index := 0, value := 1800 } .powerOn).map
    (fun p => (p.1.shuttleSpeed, p.2)) = some (1500, true) := by decide

/-- Chapter 4, start-up: LINE_START makes the line RUNNING, and the lamp shows CONFIRM over the UNKNOWN platen. -/
theorem test_line_start : (match exec (.lineStart 9) link with
    | .next t => (t.car.line, t.car.lamp, t.lnk.reply.map Frame.kind)
    | _ => (.idle, .off, none)) = (.running, .confirm, some 0xC8) := by decide +kernel

/-- Chapter 4, start-up: the footswitch confirms the UNKNOWN platen, and the lamp shows READY. -/
theorem test_footswitch : (match exec .footswitchPress (inLine .running link) with
    | .next t => (contentsAt .load t, t.car.load.working, t.car.lamp)
    | _ => (.unknown, false, .off)) = (.empty, true, .ready) := by decide +kernel

/-- Chapter 4, the choice of a serial: 65,535, 1 and 2 are held after 65,534, so 3 is chosen. -/
theorem test_serial : nextSerial [(1, tee), (2, tee), (65535, tee)] 32 65534 = 3 := by decide

/-- The profile of chapter 5's cell times. -/
def sprayed : Profile :=
  { Profile.powerOn with basis := .white, pFloor := 30, tBase := 200, tGain := 1600, tMin := 300, tMax := 1800 }

/-- Chapter 5, cell times at the window limit: lanes 1, 2, 3, 4 and 6 at 400 mm/s. -/
theorem test_cell_times : rowWindow 400 = 1000 ∧ cellTime sprayed 1000 40 { white := 216000, colour := 0 } = 600 ∧
    cellTime sprayed 1000 40 { white := 777600, colour := 0 } = 960 ∧
    cellTime sprayed 1000 40 { white := 17280, colour := 0 } = 0 ∧
    cellTime sprayed 1000 920 { white := 216000, colour := 0 } = 80 ∧
    cellTime sprayed 1000 1020 { white := 864000, colour := 0 } = 0 ∧
    cellTime { sprayed with basis := .all } 1000 40 { white := 432000, colour := 0 } = 360 := by decide

/-- The K map of chapter 7: position 1,000 has B DEAD, 1,001 has A WEAK, 1,002 has both DEAD. -/
def kMap : List (Nat × NozzleFault) := [(39401, .weak), (39402, .dead), (44200, .dead), (44202, .dead)]

/-- Chapter 7, two lines over failed nozzles: what A and B fire on lines 2,000 and 2,001. -/
theorem test_two_lines :
    let even := fun x => if x = 1000 then 3 else if x = 1001 then 3 else if x = 1002 then 2 else 1
    let odd := fun x => if x = 1000 then 2 else if x = 1001 then 3 else if x = 1002 then 0 else 3
    [1000, 1001, 1002, 1003].map (fun x => (firedBy kMap even 4 2000 0 x, firedBy kMap even 4 2000 1 x)) =
      [(3, 0), (2, 0), (0, 0), (1, 0)] ∧
    [1000, 1001, 1002, 1003].map (fun x => (firedBy kMap odd 4 2001 0 x, firedBy kMap odd 4 2001 1 x)) =
      [(2, 0), (0, 3), (0, 0), (0, 3)] ∧ moduleOf (nozzleNumber 4 0 1000) = 98 ∧ moduleOf (nozzleNumber 4 1 1000) = 110 := by
  decide

/-- Chapter 7, a tickle across a blanked line: the counter of interval 96. -/
theorem test_tickle : idleFire 96 false 94 = (95, false) ∧ idleRest 96 95 = 96 ∧ idleRest 96 96 = 96 ∧
    idleFire 96 false 96 = (0, true) ∧ idleFire 96 false 95 = (0, true) := by decide

/-- Chapter 7, the neck mark of line 1 and serial 1,234, cell row by cell row. -/
theorem test_neck_mark : (List.range 24).map (fun k => (markBits 1 1234).getMsbD k) =
    [false, false, false, false, false, false, false, true, false, false, false, false,
     false, true, false, false, true, true, false, true, false, false, true, false] := by decide

/-- Chapter 7, the spit counter: W spits at positions 0 and 2 only. -/
theorem test_spit : let p : SpitSettings := { SpitSettings.powerOn with masks := [5, 0xFFFF, 0xFFFF, 0xFFFF, 0xFFFF] }
    (spitChannels p 0).map Prod.fst = [0, 1, 2, 3, 4] ∧ (spitChannels p 1).map Prod.fst = [1, 2, 3, 4] ∧
    (spitChannels p 2).map Prod.fst = [0, 1, 2, 3, 4] := by decide

/-- Chapter 7, the defect decision: 41 lost lines over a limit of 40, 1,100 lost dots over one of 1,000. -/
theorem test_defects :
    let r : StrokeRec := { number := 1, first := 0, last := 0, framing := 0, skipped := 3, blanked := 0, lostDots := 400,
                           tickles := 0, framer := .sync, aborted := false }
    let g : Garment := { tee with
      profile := { tee.profile with lineLimit := 40, dotLimit := 1000 }
      strokes := [r, { r with number := 2, skipped := 2, blanked := 36, lostDots := 700 }] }
    (garment 1 (decideDefects 1 (riding 0 g stock))).map Garment.defects = some [.linesLost, .lostDots] := by decide

/-- The zones of chapter 8's gate example: 165.0, 170.0 and 160.0 °C. -/
def hot : State := { link with ctc := { link.ctc with zones := [1650, 1700, 1600].map fun r =>
  { reading := r, faulted := false, duty := 0, tripBegin := 0, tripEnd := 0, lowBegin := 0, lowEnd := 0 } } }

/-- Chapter 8, three garments at the entry gate: D_req of A, and the pairs of A, B and C. -/
theorem test_speed_pairs :
    doseLimits { Profile.powerOn with dBase := 120000, kInk := 64, dMax := 200000 } 20000 = (125000, 200000, false) ∧
    pairOf { tee with dReq := 125000, dMax := 200000 } 0 hot = some { lo := 375, hi := some 600 } ∧
    pairOf { tee with dReq := 125000, dMax := 200000, d := 50000 } 1200 hot = some { lo := 294, hi := some 586 } ∧
    pairOf { tee with dReq := 150000, dMax := 160000 } 0 hot = some { lo := 469, hi := some 500 } ∧
    pairOf { tee with dReq := 60000, dMax := 90000 } 0 hot = some { lo := 834, hi := some 1250 } := by decide

/-- Chapter 8: alone before the empty heated part, C is admitted with CURE_RANGE. -/
theorem test_cure_range : admission 1
    { hot with car := { hot.car with garments := [(1, { tee with dReq := 60000, dMax := 90000 })] } } = .admitted true := by
  decide

/-- Chapter 8, the duty table: T_set 1,600, g 40, ranges [0, 1,000] and [50, 1,000]. -/
theorem test_duty : [1200, 1400, 1590, 1650].map (dutyOf .powerOn 1600) = [1000, 800, 40, 0] ∧
    [1200, 1400, 1590, 1650].map (dutyOf { CureSettings.powerOn with dMin := 50 } 1600) = [1000, 800, 50, 50] := by decide

/-- Chapter 8, a zone trip with N 3: the begin counts up to the onset, and the end counts after it. -/
theorem test_zone_trip : runCounts 3 false true false 1 0 = (2, 0, false) ∧ runCounts 3 false false false 2 0 = (0, 0, false) ∧
    runCounts 3 false true false 2 0 = (0, 0, true) ∧ runCounts 3 true false true 0 0 = (0, 1, true) ∧
    runCounts 3 true false false 0 1 = (0, 0, true) ∧ runCounts 3 true false true 0 2 = (0, 0, false) := by decide

/-- Chapter 9, an unread mark: the scanner sends 001-00102. -/
theorem test_mark_record : markOf [0x30, 0x30, 0x31, 0x2D, 0x30, 0x30, 0x31, 0x30, 0x32] = some (1, 102) ∧
    markOf [0x30, 0x31, 0x2D, 0x30, 0x30, 0x31, 0x30, 0x32] = none := by decide

/-- Chapter 10, e-stop: ESTOP with count 4 is ACTIVE with count 5 at the press, and the line is HALTED. -/
theorem test_estop :
    let l : List Alarm := { Alarm.powerOn with count := 4 } :: List.replicate 21 .powerOn
    let s : State := { inLine .running link with alm := { link.alm with alarms := l } }
    (match exec (.estopChange true) s with
      | .next t => (t.car.line, (alarm 0 t).state, (alarm 0 t).count)
      | _ => (.idle, .idle, 0)) = (.halted, .active, 5) := by decide +kernel

/-- Chapter 10, the EXIT line: a framing fault in a record discards it, with one onset of SCANNER EXIT. -/
theorem test_framing_fault :
    let s : State := { link with alm := { link.alm with exit := { buffer := [0x30, 0x30, 0x31], discarding := false } } }
    (match exec (.scannerFramingFault .exit) s with
      | .next t => (t.alm.exit.discarding, t.alm.exit.buffer, (alarm 21 t).state, (alarm 21 t).count)
      | _ => (false, [], .idle, 0)) = (true, [], .latched, 1) := by decide +kernel

/-! ## Witnesses: the machine and the link -/

theorem witness_StepRunsFront :
    ({ link with pending := [.homeSensor, .scanStart] } : State).pending = .homeSensor :: [.scanStart] ∧
    link.pending = [] := ⟨rfl, rfl⟩

/-- DIVERTER_HOLD_END is none of the requests the statement names, and with no byte in the pipe it stands apart. -/
theorem witness_SettingsKeptByOthers : Apart .diverterHoldEnd stock ∧ exec .diverterHoldEnd stock = .next stock ∧
    (∀ e g, Instr.diverterHoldEnd ≠ .powerOn e g) ∧ (∀ i ch b e d, Instr.diverterHoldEnd ≠ .band i ch b e d) :=
  ⟨⟨rfl, .inl rfl, nofun⟩, rfl, nofun, nofun⟩

/-- A rejected frame that LNK answers stands apart too. -/
theorem witness_EveryCommandAnswers : Apart (.frameRejected 0x5F 0 [] (frameCrc 0x5F 0 [])) stock ∧
    (∀ t k es, Instr.frameRejected 0x5F 0 [] (frameCrc 0x5F 0 []) ≠ .configSet t k es) := by
  refine ⟨⟨rfl, .inl rfl, ?_⟩, nofun⟩
  rintro _ _ _ _ ⟨⟩
  exact ⟨by decide, by decide +kernel⟩

/-- A state with notices, queued units, store bytes, records and a LATCHED alarm meets every invariant, and steps. -/
def rich : State :=
  { stock with
    pending := [.diverterHoldEnd]
    lnk := { busySlot.lnk with notices := [.line, .order 0], pipe := [chunkOf (.ident 0)] }
    ord := { stock.ord with
      queue := [{ cls := .rush, seq := 5 }, { cls := .normal, seq := 2 }]
      units := [(1, unitA), (2, unitB), (5, { unitB with cls := .rush })] }
    alm := { stock.alm with alarms := ({ Alarm.powerOn with count := 3 } : Alarm).passed :: List.replicate 21 .powerOn } }

/-- A queued unit of `rich` is one of its two. -/
theorem rich_queued : QueueHolds rich := by
  refine ⟨by decide, fun e => ⟨fun h => ?_, fun ⟨u, h, hq, hc⟩ => ?_⟩⟩
  · have he : e = { cls := .rush, seq := 5 } ∨ e = { cls := .normal, seq := 2 } := by simpa [rich] using h
    rcases he with rfl | rfl
    · exact ⟨_, rfl, rfl, rfl⟩
    · exact ⟨_, rfl, rfl, rfl⟩
  · obtain ⟨c, q⟩ := e
    have hm : (q = 1 ∧ u = unitA) ∨ (q = 2 ∧ u = unitB) ∨ (q = 5 ∧ u = { unitB with cls := .rush }) := by
      simp only [rich, tabGet] at h
      repeat' split at h
      all_goals simp_all
    rcases hm with ⟨rfl, rfl⟩ | ⟨rfl, rfl⟩ | ⟨rfl, rfl⟩
    · exact absurd hq (by decide)
    · cases hc; decide
    · cases hc; decide

theorem witness_invariants : QueueHolds rich ∧ PipeDrained rich ∧ rich.lnk.pipe ≠ [] ∧ NoticesDistinct rich ∧ QueueInOrder rich ∧ SpeedInRange rich ∧ StoreCanonical rich ∧
    AlarmsSound rich ∧ Shaped rich ∧ Keyed rich ∧ step rich = .next { rich with pending := [] } := by
  refine ⟨rich_queued, fun _ => .inr (by decide), by decide, ?_, ?_, ?_, rfl, ?_, stock_shaped, ⟨rfl, rfl, rfl, rfl, rfl⟩, rfl⟩
  · unfold NoticesDistinct; decide
  · unfold QueueInOrder; decide
  · unfold SpeedInRange; decide
  · unfold AlarmsSound Alarm.sound; decide

/-- Garment 1 keeps its dose of 0 cc at DIVERTER_HOLD_END, and at TUNNEL_SAMPLE it takes the excess 250 of Z1. -/
theorem witness_DoseRisesAtSamplesOnly : exec .diverterHoldEnd stock = .next stock ∧ garment 1 stock = some tee ∧
    tee.d ≤ 4000000000 ∧ (∀ e l, Instr.diverterHoldEnd ≠ .powerOn e l) ∧
    (∀ a b d, Instr.diverterHoldEnd ≠ .tunnelSample a b d) ∧
    (garment 1 (accrue (riding 9999 tee hot))).map Garment.d = some 250 ∧
    (garment 1 (accrue (riding 10000 tee hot))).map Garment.d = some 300 ∧
    (garment 1 (accrue (riding 30000 tee hot))).map Garment.d = some 0 := by
  refine ⟨rfl, rfl, by decide, nofun, nofun, by decide, by decide, by decide⟩

theorem witness_ParserReadsFrames : plausible 0x01 0 = true ∧ plausible 0x5F 60000 = true := by decide

theorem witness_RequestsReadBack : (Instr.binClear 3 24 1).wf = true ∧
    bodyOf (.binClear 3 24 1) = some (0x3A, 3, [24, 1]) ∧ (∀ k t b r, Instr.binClear 3 24 1 ≠ .frameRejected k t b r) ∧
    (Instr.configSet 0 true []).wf = true ∧ (bodyOf (.configSet 0 true [])).isSome = true := by
  refine ⟨by decide, by decide, nofun, by decide, by decide⟩

/-- A wrong CRC; kind 0x5F, which no request has; an IDENT with a body byte; headers just outside the bounds of R214,
one of them of a frame with no sync in it. -/
theorem witness_LinkChecks : Reads link ∧ plausible 0x01 0 = true ∧ plausible 0x5F 0 = true ∧ plausible 0x01 1 = true ∧
    (0xA5 : Byte) ∉ [0x60, 0x00] ++ be 2 0 ++ [] ++ be 2 (0 : Crc).toNat ∧ (0 : Crc) ≠ frameCrc 0x01 0 [] ∧ kindLength (0x5F : Byte).toNat = none ∧
    kindLength (0x01 : Byte).toNat = some (.fixed 0) ∧ (BodyLength.fixed 0).allows [0] = false ∧
    plausible 0x00 0 = false ∧ plausible 0x60 0 = false ∧
    plausible 0x01 ((0xEA : Byte).toNat * 256 + (0x61 : Byte).toNat) = false := by
  refine ⟨link_reads, by decide, by decide, by decide, by decide, by decide +kernel, rfl, rfl, rfl, ?_, ?_, ?_⟩ <;> decide

/-- A reference with its object; a reply in the slot; a busy and an unconfigured transmitter; a reply being sent. -/
theorem witness_TransmitterChooses :
    let noticed : State := { link with lnk := { link.lnk with notices := [.line] } }
    let sending : State := { busySlot with lnk := { busySlot.lnk with tx := .sendingReply } }
    (Reads noticed ∧ noticed.lnk.tx = .idle ∧ noticed.lnk.notices = .line :: [] ∧
      ∃ p, buildNotice .line noticed = some p) ∧
    (busySlot.lnk.configured = true ∧ busySlot.lnk.tx = .idle ∧ busySlot.lnk.reply.isSome = true) ∧
    sending.lnk.tx ≠ .idle ∧ State.reset.lnk.configured = false ∧ sending.lnk.tx = .sendingReply ∧
    sending.lnk.pipe = [] ∧ sending.lnk.reply.isSome = true ∧ alarmIndex 1 0 = some 0 ∧ alarmIndex 14 2 = some 21 ∧
    tabGet 0 stock.ord.orders = some web ∧ tabGet 0 stock.ims.images = some art ∧ garment 1 stock = some tee :=
  ⟨⟨⟨rfl, rfl, rfl, .inl rfl⟩, rfl, rfl, _, rfl⟩, ⟨rfl, rfl, rfl⟩, by decide, rfl, rfl, rfl, rfl, rfl, rfl, rfl, rfl, rfl⟩

theorem witness_SendingReports :
    let k : Sending := { ref := .order 0, final := true, frame := { kind := 0xE0, tag := 0, body := [] } }
    let s : State := { stock with lnk := { stock.lnk with tx := .sendingNotice, sending := some k } }
    s.lnk.tx = .sendingNotice ∧ s.lnk.sending = some k := ⟨rfl, rfl⟩

/-- With a reply in the slot, and with the function not configured, the part reads no byte; within a header it does, but
not between two frames. A frame held until REPLY_READ, and one until USB_CONFIGURED. -/
theorem witness_FramesHeldBack :
    let c : Instr := .ident 0
    let half : State := { link with lnk := { link.lnk with parser := .header [] } }
    let full : State := { busySlot with lnk := { busySlot.lnk with tx := .sendingReply, pipe := [chunkOf c] } }
    let cut : State := { State.reset with lnk := { State.reset.lnk with pipe := [chunkOf c] } }
    streamBytes c ≠ [] ∧ busySlot.lnk.reply ≠ none ∧ State.reset.lnk.configured = false ∧
    (half.lnk.configured = true ∧ half.lnk.reply = none ∧ half.lnk.parser ≠ .hunt ∧ half.lnk.parser ≠ .sync) ∧
    c.wf = true ∧ (bodyOf c).isSome = true ∧ (∀ k g b r, c ≠ .frameRejected k g b r) ∧
    (full.lnk.pipe = chunkOf c :: [] ∧ full.lnk.parser = .hunt ∧ full.lnk.tx = .sendingReply ∧ full.lnk.configured = true ∧
      ∃ u t, exec .replyRead { full with lnk := { full.lnk with pipe := [] } } = .next u ∧ exec c u = .next t) ∧
    (cut.lnk.pipe = chunkOf c :: [] ∧ cut.lnk.parser = .hunt ∧ cut.lnk.reply = none ∧
      ∃ u t, exec .usbConfigured { cut with lnk := { cut.lnk with pipe := [] } } = .next u ∧ exec c u = .next t) :=
  ⟨by decide, by decide, rfl, ⟨rfl, rfl, by decide, by decide⟩, rfl, rfl, nofun,
    ⟨rfl, rfl, rfl, rfl, _, _, rfl, rfl⟩, rfl, rfl, rfl, _, _, rfl, rfl⟩

theorem witness_LinkInterruptions : State.reset.lnk.pipe = [] := rfl

theorem witness_Queries : Reads stock ∧ Shaped stock ∧ orderOf 7 stock = some (0, web) ∧
    orderOf 8 stock = none ∧ imageOf 5 stock = some (0, art) ∧ imageOf 6 stock = none ∧ garment 1 stock = some tee ∧
    garment 2 stock = none ∧ alarmIndex 14 2 = some 21 ∧ alarmIndex 14 3 = none ∧ alarmIndex 15 0 = none ∧
    alarmIndex 0 0 = none ∧ (0 ≤ stock.shf.pos ∧ stock.shf.pos < 65536) :=
  ⟨stock_reads, stock_shaped, rfl, rfl, rfl, rfl, rfl, rfl, rfl, rfl, rfl, rfl, by decide⟩

theorem witness_ProfileGetAnswers : Reads stock ∧ Shaped stock ∧ 15 < stock.prf.profiles.length ∧ 15 < 16 :=
  ⟨stock_reads, stock_shaped, by decide, by decide⟩

/-- Refused with the line RUNNING and with a garment on the belt; accepted in IDLE and in STOPPED. -/
theorem witness_ResetClears : Reads stock ∧
    ¬((inLine .running stock).car.line = .idle ∨ (inLine .running stock).car.line = .stopped) ∧
    (riding 0 tee stock).ctc.tunnel ≠ [] ∧ stock.car.line = .idle ∧ (inLine .stopped stock).car.line = .stopped ∧
    (inLine .stopped stock).ctc.tunnel = [] ∧ (inLine .stopped stock).exs.recure = [] := by
  refine ⟨stock_reads, by decide, by decide, rfl, rfl, rfl, rfl⟩

/-! ## Witnesses: orders and images -/

/-- An item at the upper bounds of R4. -/
def itemTop : ItemBody := { sku := 999999999999, image := 5, profile := 15, quantity := 16 }

/-- Order 7 is known and order 8 is not; 16 units are accepted and 17 refused; 128 occupied slots are full. -/
theorem witness_OrderAdd :
    let full : State := { link with ord := { link.ord with orders := (List.range 128).map fun k => (k, web) } }
    Reads stock ∧ (orderOf 7 stock).isSome = true ∧ orderOf 8 stock = none ∧ BadOrder 0 0 [itemTop] ∧
    BadOrder 8 0 [itemTop, itemTop] ∧ ¬ BadOrder 8 1 [itemTop] ∧ orderOf 8 full = none ∧
    (∀ k < 128, (tabGet k full.ord.orders).isSome = true) ∧ (∃ k < 128, tabGet k stock.ord.orders = none) ∧
    stock.ord.units.length + ([itemTop].map ItemBody.quantity).sum ≤ 1024 := by
  unfold BadOrder
  refine ⟨stock_reads, rfl, rfl, by decide, by decide, by decide, by decide +kernel, by decide +kernel, ⟨1, by decide, rfl⟩,
    by decide⟩

/-- `stock` with order 7 as given. -/
def orderAs (o : Order) : State := { stock with ord := { stock.ord with orders := [(0, o)] } }

theorem witness_OrderRush : Reads stock ∧ orderOf 8 stock = none ∧
    orderOf 7 (orderAs { web with state := .cancelling }) = some (0, { web with state := .cancelling }) ∧
    Keyed stock ∧ orderOf 7 stock = some (0, web) ∧ web.state = .open_ ∧
    (Reads { rich with lnk := link.lnk } ∧ QueueHolds { rich with lnk := link.lnk } ∧
      QueueInOrder { rich with lnk := link.lnk }) := by
  refine ⟨stock_reads, rfl, rfl, stock_keyed, rfl, rfl, ⟨rfl, rfl, rfl, .inl rfl⟩, rich_queued, ?_⟩
  unfold QueueInOrder; decide

/-- One order with an IN_LINE unit, and one with none that holds bin 24. -/
theorem witness_OrderCancel :
    let binned : Order := { web with bin := some 24, counts := { web.counts with inLine := 0 } }
    Reads stock ∧ orderOf 8 stock = none ∧
    orderOf 7 (orderAs { web with state := .cancelling }) = some (0, { web with state := .cancelling }) ∧
    Keyed stock ∧ orderOf 7 stock = some (0, web) ∧ web.state ≠ .cancelling ∧ web.counts.inLine ≠ 0 ∧ web.bin = none ∧
    Keyed (orderAs binned) ∧ orderOf 7 (orderAs binned) = some (0, binned) ∧ binned.bin = some 24 ∧
    binned.counts.inLine = 0 ∧ unitA.slot = 0 ∧ tabGet 1 stock.ord.units = some unitA ∧ unitA.state = .inLine :=
  ⟨stock_reads, rfl, rfl, stock_keyed, rfl, by decide, by decide, rfl, stock_keyed, rfl, rfl, rfl, rfl, rfl, rfl⟩

/-- The unit of garment 1, IN_LINE: in an OPEN order, in a CANCELLING one, and with its item at the reprint limit. -/
theorem witness_SortReports :
    let it : Item := { sku := 4100, image := 5, profile := 0, quantity := 2, reprints := 0 }
    Keyed stock ∧ orderOf tee.order stock = some (0, web) ∧ unitSeq 0 tee.item tee.index stock = some 1 ∧
    tabGet 1 stock.ord.units = some unitA ∧ web.items[unitA.item]? = some it ∧ web.state ≠ .cancelling ∧
    it.reprints < stock.prf.line.reprintLimit ∧
    orderOf tee.order (orderAs { web with state := .cancelling }) = some (0, { web with state := .cancelling }) ∧
    orderOf tee.order (orderAs { web with items := [{ it with reprints := 2 }] }) =
      some (0, { web with items := [{ it with reprints := 2 }] }) ∧
    stock.prf.line.reprintLimit ≤ 2 ∧ unitA.state = .inLine := by
  refine ⟨stock_keyed, rfl, rfl, rfl, rfl, by decide, by decide, rfl, rfl, by decide, rfl⟩

/-- The stream target is there, the id is taken, a width of 15 dots, a full table, and an open of the smallest and of
the largest image at an empty slot. -/
theorem witness_ImageOpen :
    let full : State := { link with ims := { link.ims with images := (List.range 64).map fun k => (k, art) } }
    Reads stock ∧ (openImage (imageIn .open_ stock)).isSome = true ∧ openImage stock = none ∧
    (imageOf 5 stock).isSome = true ∧ imageOf 6 stock = none ∧ (15 < 16 ∨ 4800 < 15) ∧
    openImage full = none ∧ imageOf 6 full = none ∧ (∀ k < 64, (tabGet k full.ims.images).isSome = true) ∧
    freeKey 64 link.ims.images = some 0 ∧ openImage link = none ∧ imageOf 6 link = none ∧
    (16 + 47) / 48 * (channelsIn (BitVec.ofNat 5 1)).length ≤ (pageSupply (1 == 1) link).length ∧
    (6240 + 47) / 48 * (channelsIn (BitVec.ofNat 5 31)).length ≤ (pageSupply (0 == 1) link).length := by
  refine ⟨stock_reads, rfl, rfl, rfl, rfl, by decide, by decide, by decide, by decide +kernel, rfl, rfl, rfl, ?_, ?_⟩ <;>
  decide +kernel

theorem witness_BandDataDecodes : Run.ok (.literal [7]) ∧ Run.ok (.literal (List.replicate 128 7)) ∧
    Run.ok (.repeated 2 7) ∧ Run.ok (.repeated 129 7) ∧ 0 < 1 ∧ 1 < (Run.repeated 129 7).spell.length := by
  unfold Run.ok; decide +kernel

/-- `stock` with image 5 OPEN and its one entry unsent. -/
def streaming : State :=
  { stock with ims := { stock.ims with images := [(0, { art with state := .open_, planes := [.page 0 false] })] } }

/-- No image OPEN; a channel not declared, a band past the last, encoding 2; data one byte short; a whole plane. -/
theorem witness_BandWritesPage :
    let i : Image := { art with state := .open_, planes := [.page 0 false] }
    Reads stock ∧ openImage stock = none ∧ openImage streaming = some (0, i) ∧ i.channels.getLsbD 1 = false ∧
    (i.h + 47) / 48 ≤ 1 ∧ i.channels.getLsbD 0 = true ∧ 0 < (i.h + 47) / 48 ∧
    planeData 0 (min 48 (i.h - 48 * 0) * ((i.w + 3) / 4)) (List.replicate 63 1) = none ∧
    i.planes[(channelsIn i.channels).idxOf 0 * ((i.h + 47) / 48) + 0]? = some (.page 0 false) ∧
    planeData 0 (min 48 (i.h - 48 * 0) * ((i.w + 3) / 4)) (List.replicate 64 1) = some (List.replicate 64 1) := by
  refine ⟨stock_reads, rfl, rfl, rfl, by decide, rfl, by decide, by decide +kernel, by decide, by decide +kernel⟩

/-- No image OPEN; a close that begins its own scan, one behind a running scan, and one with every entry unsent. -/
theorem witness_ImageEnds :
    let closed : Plane → Plane := fun p => match p with
      | .page _ false => .blank
      | .page n true => .page n true
      | .blank => .blank
      | .lost => .lost
    let sent : Image := { art with state := .open_ }
    let closing : Image := { art with id := 9, state := .closing }
    let c : Scan := { slot := 1, entry := 0, sums := .zero, bad := false }
    let one : State := { stock with ims := { stock.ims with images := [(0, sent)] } }
    let two : State := { stock with ims := { stock.ims with images := [(0, sent), (1, closing)], scanQueue := [1], scan := some c } }
    Reads stock ∧ openImage stock = none ∧ openImage one = some (0, sent) ∧ Keyed one ∧ one.ims.scan = none ∧
    one.ims.scanQueue = [] ∧ nextPage (sent.planes.map closed) 0 = some 0 ∧
    openImage two = some (0, sent) ∧ Keyed two ∧ two.ims.scan = some c ∧ c.slot ≠ 0 ∧
    tabGet c.slot two.ims.images = some closing ∧ nextPage closing.planes c.entry = some 0 ∧
    openImage streaming = some (0, { sent with planes := [.page 0 false] }) ∧
    nextPage (({ sent with planes := [.page 0 false] } : Image).planes.map closed) 0 = none :=
  ⟨stock_reads, rfl, rfl, stock_keyed, rfl, rfl, rfl, rfl, ⟨rfl, rfl, rfl, rfl, rfl⟩, rfl, by decide, rfl, rfl, rfl, rfl⟩

/-- An image whose close leaves no page to read, with a unit that waits for it. -/
theorem witness_ImageEnds_completes :
    let waiting : UnitRec := { unitB with state := .waitImage }
    let s : State := { streaming with ord := { streaming.ord with units := [(1, unitA), (2, waiting)], queue := [] } }
    (∃ i, openImage s = some (0, i) ∧ imageOf i.id s = some (0, i) ∧ nextPage (i.planes.map closePlane) 0 = none ∧
      unitImage waiting s = some i.id) ∧ Keyed s ∧ s.ims.scan = none ∧ s.ims.scanQueue = [] :=
  ⟨⟨_, rfl, rfl, rfl, rfl⟩, ⟨rfl, rfl, rfl, rfl, rfl⟩, rfl, rfl⟩

/-- OPEN; READY and referenced; READY and free of references; DAMAGED with and without a print on it; CLOSING at the
front of the scan queue and behind another image. -/
theorem witness_ImageDeletes :
    let damaged : Image := { art with state := .damaged }
    let closing : Image := { art with state := .closing }
    let other : Image := { art with id := 9, state := .closing }
    let c : Scan := { slot := 0, entry := 0, sums := .zero, bad := false }
    let with_ : List (Nat × Image) → List Nat → Option Scan → State := fun l q k =>
      { stock with ims := { stock.ims with images := l, scanQueue := q, scan := k } }
    let lone := with_ [(0, { art with queuedRefs := 0, garmentRefs := 0 })] [] none
    Reads stock ∧ imageOf 6 stock = none ∧ imageOf 5 streaming = some (0, { art with state := .open_, planes := [.page 0 false] }) ∧
    imageOf 5 stock = some (0, art) ∧ art.state = .ready ∧ 0 < art.queuedRefs ∧
    imageOf 5 lone = some (0, { art with queuedRefs := 0, garmentRefs := 0 }) ∧
    imageOf 5 (with_ [(0, { damaged with printActive := true })] [] none) = some (0, { damaged with printActive := true }) ∧
    imageOf 5 (with_ [(0, damaged)] [] none) = some (0, damaged) ∧ damaged.printActive = false ∧
    printBegun 5 (with_ [(0, damaged)] [] none) = false ∧
    imageOf 5 (with_ [(0, closing)] [0] (some c)) = some (0, closing) ∧ c.slot = 0 ∧
    imageOf 5 (with_ [(0, closing), (1, other)] [1, 0] (some { c with slot := 1 })) = some (0, closing) ∧
    tabGet 1 (with_ [(0, closing), (1, other)] [1, 0] none).ims.images = some other ∧
    nextPage other.planes 0 = some 0 :=
  ⟨stock_reads, rfl, rfl, rfl, rfl, by decide, rfl, rfl, rfl, rfl, rfl, rfl, rfl, rfl, rfl, rfl⟩

/-- The image whose scan runs is deleted while image 9 waits, with a page and with none. -/
theorem witness_ImageDeletes_running :
    let closing : Image := { art with state := .closing }
    let other : Plane → Image := fun p => { art with id := 9, state := .closing, planes := [p] }
    let c : Scan := { slot := 0, entry := 0, sums := .zero, bad := false }
    let s : Plane → State := fun p => { stock with
      ims := { stock.ims with images := [(0, closing), (1, other p)], scanQueue := [0, 1], scan := some c } }
    imageOf 5 (s .blank) = some (0, closing) ∧ (s .blank).ims.scan = some c ∧ c.slot = 0 ∧
    (s .blank).ims.scanQueue.filter (· != 0) = 1 :: [] ∧ tabGet 1 (s .blank).ims.images = some (other .blank) ∧
    nextPage (other .blank).planes 0 = none ∧ nextPage (other (.page 1 true)).planes 0 = some 0 ∧ Keyed (s .blank) ∧
    imageOf 9 (s .blank) = some (1, other .blank) :=
  ⟨rfl, rfl, rfl, rfl, rfl, rfl, rfl, ⟨rfl, rfl, rfl, rfl, rfl⟩, rfl⟩

/-- A waiting scan; a scan with one more page, read at its first; a scan at its last page. -/
theorem witness_CoverageScan :
    let two : Image := { art with h := 49, state := .closing, planes := [.page 0 true, .page 1 true] }
    let c : Scan := { slot := 0, entry := 0, sums := .zero, bad := false }
    let s : Option Scan → State := fun k =>
      { stock with ims := { stock.ims with images := [(0, two)], scanQueue := [0], scan := k } }
    (s none).ims.scan = none ∧ (s none).ims.scanQueue = 0 :: [] ∧ tabGet 0 (s none).ims.images = some two ∧
    nextPage two.planes 0 = some 0 ∧ Keyed (s (some c)) ∧ Shaped (s (some c)) ∧ (s (some c)).ims.scan = some c ∧
    two.planes[c.entry]? = some (.page 0 true) ∧ nextPage two.planes (c.entry + 1) = some 1 ∧
    two.planes[1]? = some (.page 1 true) ∧ nextPage two.planes (1 + 1) = none ∧ (s none).ims.scanQueue = [c.slot] ∧
    c.bad = false :=
  ⟨rfl, rfl, rfl, rfl, stock_keyed, stock_shaped, rfl, rfl, rfl, rfl, rfl, rfl, rfl⟩

/-- A coverage record and a band-plane to add to it, of a declared channel. -/
theorem witness_CoverageScan_adds : Coverage.zero.units.length = 5 ∧ Coverage.zero.cells.length = 104 ∧ 4 < 5 ∧
    7 < 8 ∧ 12 < 13 ∧ art.channels.getLsbD 0 = true ∧ 0 < (art.h + 47) / 48 ∧ 63 < 64 := by
  refine ⟨rfl, rfl, ?_, ?_, ?_, rfl, ?_, ?_⟩ <;> decide

/-- A scan at the last page of its image with another image behind it, and with none. -/
theorem witness_CoverageScan_completes :
    let one : Image := { art with state := .closing }
    let next : Image := { one with id := 9, planes := [.blank, .page 1 true] }
    let c : Scan := { slot := 0, entry := 0, sums := .zero, bad := false }
    let s : State := { stock with ims := { stock.ims with images := [(0, one), (1, next)], scanQueue := [0, 1], scan := some c } }
    Keyed s ∧ Shaped s ∧ s.ims.scan = some c ∧ tabGet c.slot s.ims.images = some one ∧
    one.planes[c.entry]? = some (.page 0 true) ∧ nextPage one.planes (c.entry + 1) = none ∧
    s.ims.scanQueue = c.slot :: [1] ∧ c.slot ∉ [1] ∧ imageOf one.id s = some (c.slot, one) ∧
    tabGet 1 s.ims.images = some next ∧ nextPage next.planes 0 = some 1 :=
  ⟨⟨rfl, rfl, rfl, rfl, rfl⟩, stock_shaped, rfl, rfl, rfl, rfl, rfl, by decide, rfl, rfl, rfl⟩

/-! ## Witnesses: profiles, settings, lines -/

/-- Some next state of SettingRanges' mask entry: module 23 of W set. -/
theorem witness_SettingRanges : (7 < 8) ∧ 119 < 120 ∧ 119 / 24 ≠ 0 ∧ 23 / 24 = 0 ∧
    (applySetting { code := 0x0A, index := 0, value := 8388608 } .powerOn).map (fun p => p.1.exempt.getLsbD 23) = some true := by
  decide +kernel

/-- Every check of R57 in turn, at a list of 64 and of 65 entries, and the three acceptances. -/
theorem witness_ConfigSet :
    let reserveOver : List SettingEntry := [{ code := 0x10, index := 0, value := 5001 }]
    let unlock : List SettingEntry := [{ code := 0x16, index := 0, value := 0 }]
    let lineTwo : List SettingEntry := [{ code := 0x01, index := 0, value := 2 }]
    let fast : List SettingEntry := [{ code := 0x08, index := 0, value := 1800 }]
    let guards : List SettingEntry := [{ code := 0x13, index := 0, value := 7 }]
    let locked : State := { stock with prf := { stock.prf with line := { stock.prf.line with lock := true } } }
    Reads stock ∧ 64 < (List.replicate 65 (fast.headD ⟨0, 0, 0⟩)).length ∧ namedOnce (fast ++ fast) = false ∧
    applySettings [{ code := 0x17, index := 0, value := 0 }] stock.prf.line = none ∧
    (namedOnce reserveOver = true ∧ (applySettings reserveOver stock.prf.line).map (fun p => (p.1.tankCap, p.1.tankReserve)) =
      some (5000, 5001)) ∧
    (namedOnce unlock = true ∧ (applySettings unlock locked.prf.line).map (fun p => p.1.lock) = some false ∧
      locked.prf.line.lock = true) ∧
    (namedOnce lineTwo = true ∧ (applySettings lineTwo stock.prf.line).map (fun p => p.1.lineId) = some 2 ∧
      (inLine .running stock).car.line = .running) ∧
    (namedOnce fast = true ∧ (applySettings fast stock.prf.line).map (fun p => (p.1.shuttleSpeed, p.2)) = some (1500, true)) ∧
    (namedOnce guards = true ∧ (applySettings guards stock.prf.line).map (fun p => p.1.guardMask) = some 7 ∧
      (7 : BitVec 4) ≠ stock.prf.line.guardMask ∧ Shaped stock) := by
  refine ⟨stock_reads, by decide, by decide, by decide, by decide, by decide, by decide, by decide, by decide, by decide,
    by decide, stock_shaped⟩

/-- Two names of one setting; a list of a refused entry behind an accepted one, and of two accepted ones, the second
clamped; GUARD absent with guard 1 low and present with every guard high, under a changed mask. -/
theorem witness_ConfigSet_entries :
    let two : SettingEntry := { code := 0x01, index := 0, value := 2 }
    let fast : SettingEntry := { code := 0x08, index := 0, value := 1800 }
    let none_ : SettingEntry := { code := 0x17, index := 0, value := 0 }
    let mask : List SettingEntry := [{ code := 0x13, index := 0, value := 1 }]
    let open_ : State := { stock with pins := { stock.pins with guards := 14 } }
    (0 < 2 ∧ [two, fast, two][0]? = some two ∧ [two, fast, two][2]? = some two) ∧
    (applySetting two stock.prf.line).isSome = true ∧ applySettings [two, none_] stock.prf.line = none ∧
    (applySettings [two, fast] stock.prf.line).map (fun p => (p.1.lineId, p.1.shuttleSpeed, p.2)) = some (2, 1500, true) ∧
    (namedOnce mask = true ∧ (applySettings mask stock.prf.line).map (fun p => p.1.guardMask) = some 1 ∧
      (1 : BitVec 4) ≠ stock.prf.line.guardMask) ∧
    ((1#4 &&& ~~~open_.pins.guards ≠ 0) ∧ (alarm 1 open_).present = false) ∧
    (¬ (1#4 &&& ~~~stock.pins.guards ≠ 0) ∧ (alarm 1 (alarmIs 1 Alarm.powerOn.begun stock)).present = true) := by
  refine ⟨⟨?_, rfl, rfl⟩, ?_, ?_, ?_, ⟨?_, ?_, ?_⟩, ⟨?_, ?_⟩, ⟨?_, ?_⟩⟩ <;> decide

/-- A reserve of 512 pages with page 7,680, its lowest, owned by an image that is not rush, and with page 7,679. -/
theorem witness_ConfigSet_reserve :
    let es : List SettingEntry := [{ code := 0x04, index := 0, value := 1 }]
    let s : Nat → State := fun n => { stock with ims := { stock.ims with images := [(0, { art with planes := [.page n true] })] } }
    Reads (s 7680) ∧ namedOnce es = true ∧
    (applySettings es stock.prf.line).map (fun p => p.1.reserve) = some .sixteenth ∧ stock.prf.line.reserve = .zero ∧
    (∃ i ∈ (s 7680).ims.images, i.2.removed = false ∧ i.2.rush = false ∧
      ∃ n sent, Plane.page n sent ∈ i.2.planes ∧ 8192 - Reserve.sixteenth.pages ≤ n) ∧
    ¬ ∃ i ∈ (s 7679).ims.images, i.2.removed = false ∧ i.2.rush = false ∧
      ∃ n sent, Plane.page n sent ∈ i.2.planes ∧ 8192 - Reserve.sixteenth.pages ≤ n := by
  refine ⟨⟨rfl, rfl, rfl, .inl rfl⟩, by decide, by decide, rfl,
    ⟨_, List.mem_singleton.2 rfl, rfl, rfl, 7680, true, by simp, by decide⟩, ?_⟩
  simp [art, Reserve.pages]

/-- Garment 1 at PRETREAT, HELD and WAITING, where the tank reserve changes and the guard mask does not. -/
theorem witness_ConfigSet_tank :
    let es : List SettingEntry := [{ code := 0x10, index := 0, value := 5000 }]
    let c : Schedule := { times := List.replicate 104 0, speed := 400, window := 1000, delays := [], flow := 1, fluid := 0 }
    let s : PretreatJob → State := fun j =>
      { standing .pretreat stock with ptr := { stock.ptr with job := j, schedule := some c } }
    Reads (s .held) ∧ namedOnce es = true ∧
    (applySettings es stock.prf.line).map (fun p => (p.1.tankCap, p.1.tankReserve, p.1.guardMask)) =
      some (5000, 5000, stock.prf.line.guardMask) ∧ stock.prf.line.tankReserve ≠ 5000 ∧
    (s .held).ptr.job = .held ∧ (s .waiting).ptr.job = .waiting ∧ (s .held).ptr.schedule = some c ∧
    stock.ptr.job ≠ .held ∧ stock.ptr.job ≠ .waiting := by
  refine ⟨⟨rfl, rfl, rfl, .inl rfl⟩, by decide, by decide, by decide, rfl, rfl, rfl, by decide, by decide⟩

/-- A body at the power-on values. -/
def bodyOn : ProfileBody :=
  { basis := 2, pFloor := 1000, tBase := 4000, tGain := 4000, tMin := 4000, tMax := 4000, dwell := 60, tfMin := 1000,
    tfMax := 2500, lineLimit := 6240, dotLimit := 16777215, markOn := 1, markX := 4752, markY := 6208, tTh := 2500,
    dBase := 2000000, kInk := 255, dMax := 4000000 }

theorem witness_ProfileSet :
    let locked : State := { stock with prf := { stock.prf with line := { stock.prf.line with lock := true } } }
    Reads locked ∧ locked.prf.line.lock = true ∧ Reads stock ∧ stock.prf.line.lock = false ∧ 15 < 16 ∧ 3 ≤ 3 ∧
    (clampedProfile { bodyOn with tMin := 1, tMax := 0 }).tMax < (clampedProfile { bodyOn with tMin := 1, tMax := 0 }).tMin ∧
    bodyOn.markOn < 2 ∧ bodyOn.basis = Basis.code .all ∧ (clampedProfile bodyOn).tMin ≤ (clampedProfile bodyOn).tMax ∧
    (clampedProfile bodyOn).tfMin ≤ (clampedProfile bodyOn).tfMax ∧ clampedProfile bodyOn = bodyOn ∧
    clampedProfile { bodyOn with tMax := 4001 } ≠ { bodyOn with tMax := 4001 } := by
  refine ⟨⟨rfl, rfl, rfl, .inl rfl⟩, rfl, stock_reads, rfl, ?_, ?_, ?_, ?_, ?_, ?_, ?_, ?_, ?_⟩ <;> decide

/-- T_trip equal to a T_set is refused; a body of equal pairs is accepted. -/
theorem witness_CureAndSpitSet :
    let b : CureBody := CureBody.mk 1600 1600 1600 1601 100 20 40 1000 1000 800 800
    let refused : CureBody := CureBody.mk 1600 1700 1600 1700 100 20 40 0 1000 100 800
    Reads link ∧ (clampedCure refused).tTrip ≤ (clampedCure refused).tSet2 ∧ (clampedCure b).dMin ≤ (clampedCure b).dMax ∧
    (clampedCure b).sMin ≤ (clampedCure b).sMax ∧ (clampedCure b).tSet1 < (clampedCure b).tTrip ∧
    (clampedCure b).tSet2 < (clampedCure b).tTrip ∧ (clampedCure b).tSet3 < (clampedCure b).tTrip ∧
    link.ctc.tunnel = [] ∧ link.ctc.entrant = none := by
  refine ⟨link_reads, ?_, ?_, ?_, ?_, ?_, ?_, rfl, rfl⟩ <;> decide

/-- An empty list, a first position past the row, a count past the row's end; 512 entries. -/
theorem witness_NozzleSet :
    let last : NozzleEntry := { channel := 4, row := 1, first := 4799, count := 65535, state := 2 }
    Reads link ∧ 4800 ≤ ({ last with first := 4800 } : NozzleEntry).first ∧
    512 < (List.replicate 513 last).length ∧ (List.replicate 512 last).length ≤ 512 ∧ [last] ≠ [] ∧
    (∀ e ∈ [last], e.channel < 5 ∧ e.row < 2 ∧ e.first < 4800 ∧ 1 ≤ e.count ∧ e.state < 3) ∧
    applyNozzle last [] = some ([(47999, .dead)], true) := by
  refine ⟨link_reads, ?_, ?_, ?_, ?_, ?_, ?_⟩ <;> decide +kernel

/-- Two overlapping entries: the nozzles of the second take its state, the others of the first keep the first's, and the
rest theirs. -/
theorem witness_NozzleSet_overlap :
    let dead : NozzleEntry := { channel := 0, row := 0, first := 0, count := 4, state := 2 }
    let weak : NozzleEntry := { channel := 0, row := 0, first := 2, count := 1, state := 1 }
    let names : NozzleEntry → Nat → Prop := fun e x => 9600 * e.channel + 4800 * e.row + e.first ≤ x ∧
      x < 9600 * e.channel + 4800 * e.row + e.first + min e.count (4800 - e.first)
    ([dead, weak] = [dead] ++ weak :: [] ∧ names weak 2) ∧
    ([dead, weak] = [] ++ dead :: [weak] ∧ names dead 3 ∧ ¬ names weak 3) ∧
    (¬ names dead 4 ∧ ¬ names weak 4) ∧
    (applyNozzles [dead, weak] []).map (fun p => (List.range 5).map fun x => nozzleState p.1 x) =
      some [some .dead, some .dead, some .weak, some .dead, none] := by
  refine ⟨⟨rfl, ?_⟩, ⟨rfl, ?_, ?_⟩, ⟨?_, ?_⟩, ?_⟩ <;> decide +kernel

/-- Each line state of the statement, with and without a halt-class alarm. -/
theorem witness_LineStartAndStop :
    let l : List Alarm := Alarm.powerOn.begun :: List.replicate 21 .powerOn
    let tripped : State := { link with alm := { link.alm with alarms := l } }
    Reads tripped ∧ (alarm 0 tripped).state ≠ .idle ∧ Reads link ∧ (alarm 0 link).state = .idle ∧
    (alarm 2 link).state = .idle ∧ (alarm 16 link).state = .idle ∧ link.alm.drill = 0 ∧ link.car.line = .idle ∧
    (inLine .running link).car.line = .running ∧ (inLine .draining link).car.line = .draining ∧
    (inLine .halted link).car.line = .halted ∧ startAllowed (inLine .halted link) = true ∧
    startAllowed (inLine .halted tripped) = false := by
  refine ⟨⟨rfl, rfl, rfl, .inl rfl⟩, ?_, link_reads, ?_, ?_, ?_, ?_, ?_, ?_, ?_, ?_, ?_, ?_⟩ <;> decide

/-- The index MOVING in a DRAINING line; the stall timer running in a STOPPED one; neither. -/
theorem witness_Halts :
    let moving : State := { inLine .draining link with car := { link.car with line := .draining, index := .moving } }
    let stalling : State := { inLine .stopped link with ctc := { link.ctc with stallFrom := some 0 } }
    Reads (inLine .running link) ∧ (inLine .halted link).car.line = .halted ∧ Shaped moving ∧ moving.car.index = .moving ∧
    Shaped stalling ∧ stalling.ctc.stallFrom.isSome = true ∧ link.car.index ≠ .moving ∧ link.ctc.stallFrom = none := by
  refine ⟨⟨rfl, rfl, rfl, .inl rfl⟩, rfl, ⟨rfl, rfl, rfl, rfl, rfl, rfl, rfl, by decide⟩, rfl,
    ⟨rfl, rfl, rfl, rfl, rfl, rfl, rfl, by decide⟩, rfl, by decide, rfl⟩

/-! ## Witnesses: the carousel -/

/-- A RUNNING line with every station RELEASED. -/
def freeLine : State :=
  { inLine .running link with car := { link.car with line := .running, load := { working := false, hold := .none } } }

theorem witness_IndexStart :
    let paused : State := { freeLine with car := { freeLine.car with index := .paused, indexRun := 2999999 } }
    (freeLine.car.line = .running ∧ freeLine.pins.estop = false ∧ (alarm 1 freeLine).state = .idle ∧
      freeLine.prf.line.guardMask &&& ~~~freeLine.pins.guards = 0) ∧ freeLine.car.index = .none ∧
    (∀ st, (station st freeLine).working = false) ∧ paused.car.index = .paused ∧
    (station .load (inLine .running link)).working = true ∧ (inLine .running link).car.index = .none ∧
    link.car.line = .idle := by
  refine ⟨⟨rfl, rfl, rfl, rfl⟩, rfl, ?_, rfl, rfl, rfl, rfl⟩
  intro st; cases st <;> rfl

/-- A PAUSED index with a guard open; a MOVING one with every condition met, with e-stop active and in HALTED. -/
theorem witness_IndexStart_others :
    let at_ : IndexState → Pins → LineState → State := fun i p l =>
      { inLine l link with pins := p, car := { (inLine l link).car with index := i } }
    let open_ : Pins := { link.pins with guards := 7 }
    ((at_ .paused open_ .running).prf.line.guardMask &&& ~~~open_.guards ≠ 0 ∧
      (at_ .paused open_ .running).car.index = .paused) ∧
    ((at_ .moving link.pins .running).car.index = .moving ∧ link.pins.estop = false ∧
      link.prf.line.guardMask &&& ~~~link.pins.guards = 0 ∧ (at_ .moving link.pins .running).car.line ≠ .halted) ∧
    (at_ .moving { link.pins with estop := true } .running).pins.estop = true ∧
    (at_ .moving link.pins .halted).car.line = .halted := by
  refine ⟨⟨?_, rfl⟩, ⟨rfl, rfl, rfl, ?_⟩, rfl, rfl⟩ <;> decide

/-- A MOVING index with garment 1 at position 5, which arrives at UNLOAD; one with no garment. -/
theorem witness_IndexSensor :
    let l : List Platen := stock.car.platens.modify 5 fun p => { p with contents := .garment 1 }
    let s : State := { stock with car := { stock.car with line := .running, index := .moving, platens := l } }
    link.car.index ≠ .moving ∧ s.car.index = .moving ∧
    s.car.platens = s.car.platens.dropLast ++ [{ number := 7, contents := .unknown }] ∧
    garment 1 s = some tee ∧ (match exec .indexSensor s with
      | .next t => contentsAt .unload t
      | _ => .empty) = .garment 1 := by
  refine ⟨?_, rfl, ?_, rfl, ?_⟩ <;> decide +kernel

/-- The coverage of an image with half of its first cell in W. -/
def halfCell : Coverage :=
  { Coverage.zero with cells := { white := 432000, colour := 0 } :: List.replicate 103 { white := 0, colour := 0 } }

/-- Garment 1 with a profile, on the platen that a MOVING index brings to station `st`. -/
def arriving (st : Station) (p : Profile) : State :=
  { stock with
    ims := { stock.ims with images := [(0, { art with coverage := some halfCell })] }
    car := { stock.car with
      line := .running, index := .moving, garments := [(1, { tee with profile := p })],
      platens := stock.car.platens.modify (positionOf st - 1) fun q => { q with contents := .garment 1 } } }

/-- What stands at station `st` after the index. -/
def arrived (st : Station) (p : Profile) : Contents :=
  match exec .indexSensor (arriving st p) with
  | .next t => contentsAt st t
  | _ => .empty

/-- A profile that sprays every cell, and the schedule it makes of `halfCell`. -/
def wet : Profile := { Profile.powerOn with basis := .white, tBase := 400, tGain := 400, tMin := 0, tMax := 960 }
def wetPlan : Schedule := scheduleOf wet halfCell .powerOn

/-- Arrivals at PRETREAT with and without something to spray and with too little fluid; at FLASH without a dwell, cold,
at the window's bound and hot; at PRINT with strokes and without. -/
theorem witness_IndexSensor_arrivals :
    let hot : Profile := { Profile.powerOn with dwell := 60, tfMin := 1600, tfMax := 1700 }
    let g : Garment := { tee with profile := wet }
    let full : State := { arriving .pretreat wet with ptr := { stock.ptr with tank := 5000000000 } }
    (arrived .pretreat wet = .garment 1 ∧ arrived .pretreat .powerOn = .garment 1 ∧ arrived .flash hot = .garment 1 ∧
      arrived .flash .powerOn = .garment 1 ∧ arrived .unload .powerOn = .garment 1) ∧
    Shaped (arriving .pretreat wet) ∧ garment 1 (arriving .pretreat wet) = some g ∧
    Profile.powerOn.basis = .none ∧ wet.basis ≠ .none ∧ Defect.imageGone ∉ g.defects ∧ coverageOf g (arriving .pretreat wet) = halfCell ∧
    (∃ x ∈ wetPlan.times, x ≠ 0) ∧ wetPlan.fluid = 5016000 ∧ full.prf.line.tankReserve = 250 ∧
    full.ptr.tank = 5000000000 ∧ (arriving .pretreat wet).ptr.tank = 0 ∧
    Profile.powerOn.dwell = 0 ∧ 0 < hot.dwell ∧ (arriving .flash hot).ptr.flashJob = .none ∧
    (arriving .flash hot).ptr.flashFaulted = false ∧ (arriving .flash hot).ptr.flashReading < hot.tfMin ∧
    (planOf tee (arriving .print .powerOn)).strokes = [1, 2] ∧
    (planOf { tee with image := none, defects := [.imageGone] } stock).strokes = [] := by
  refine ⟨⟨?_, ?_, ?_, ?_, ?_⟩, ⟨rfl, rfl, rfl, rfl, rfl, rfl, rfl, by decide⟩, rfl, by decide, by decide, by decide, rfl,
    by decide +kernel, by decide +kernel, rfl, rfl, rfl, rfl, by decide, rfl, rfl, by decide, by decide, by decide⟩ <;>
  decide +kernel

/-- A DRAINING line with no garment on a platen, which stops; a DRAINING line with garment 1 between two stations and LOAD
EMPTY, where every station is RELEASED after the arrivals and the next index starts; garment 1 back at LOAD, where none
does. -/
theorem witness_IndexSensor_line :
    let bare := stock.car.platens.map fun p => { p with contents := .empty }
    let at_ : List Platen → State := fun ps =>
      { stock with car := { stock.car with line := .draining, index := .moving, platens := ps } }
    let after : List Platen → LineState × IndexState × Option Stage := fun ps => match exec .indexSensor (at_ ps) with
      | .next t => (t.car.line, t.car.index, (garment 1 t).map Garment.stage)
      | _ => (.idle, .paused, none)
    let with_ : Nat → List Platen := fun k => bare.modify k fun p => { p with contents := .garment 1 }
    (at_ bare).car.index = .moving ∧ bare.length = 7 + 1 ∧ (∀ q ∈ bare, q.contents = .empty) ∧
    after bare = (.stopped, .none, some .loaded) ∧ after (with_ 2) = (.draining, .moving, some .loaded) ∧
    after (with_ 7) = (.draining, .none, some .loaded) := by
  refine ⟨rfl, rfl, ?_, ?_, ?_, ?_⟩ <;> decide +kernel

/-- The LOAD line holding the SKU 4100, a RUNNING line, and an EMPTY platen at a WORKING LOAD station. -/
def scanning (chars : List Byte) : State :=
  { holding .load .empty (inLine .running stock) with
    alm := { stock.alm with load := { buffer := chars, discarding := false } } }

theorem witness_LoadScan :
    let sku : List Byte := [0x34, 0x31, 0x30, 0x30]
    let it : Item := { sku := 4100, image := 5, profile := 0, quantity := 2, reprints := 0 }
    let full : State := { scanning sku with car := { (scanning sku).car with garments := (List.range 32).map fun k => (k + 1, tee) } }
    (scanning sku).alm.load = { buffer := sku, discarding := false } ∧ sku ≠ [] ∧ (scanning sku).car.line = .running ∧
    (1 ≤ sku.length ∧ sku.length ≤ 12 ∧ ∀ c ∈ sku, 0x30 ≤ c.toNat ∧ c.toNat ≤ 0x39) ∧
    sku.foldl (fun a c => a * 10 + (c.toNat - 0x30)) 0 = 4100 ∧
    ¬ (List.replicate 13 (0x30 : Byte)).length ≤ 12 ∧ ¬ (0x30 ≤ (0x2F : Byte).toNat) ∧
    ((scanning sku).car.load.working = true ∧ contentsAt .load (scanning sku) = .empty ∧ (scanning sku).car.index = .none) ∧
    contentsAt .load stock = .unknown ∧ 32 ≤ full.car.garments.length ∧ (scanning sku).car.garments.length < 32 ∧
    (scanning sku).ord.queue = [] ++ { cls := .normal, seq := 2 } :: [] ∧
    demanded 4100 (scanning sku) { cls := .normal, seq := 2 } unitB web it ∧ unitB.state = .queued ∧
    (scanning sku).prf.profiles[it.profile]? = some .powerOn ∧ imageOf it.image (scanning sku) = some (0, art) ∧
    art.coverage = some .zero ∧
    (scanning sku).car.platens = { number := 0, contents := .empty } :: (scanning sku).car.platens.tail ∧
    (∀ e ∈ (scanning sku).ord.queue, ∀ un o it, ¬ demanded 4101 (scanning sku) e un o it) := by
  refine ⟨rfl, by decide, rfl, by decide, by decide, by decide, by decide, ⟨rfl, rfl, rfl⟩, rfl, by decide, by decide, rfl,
    ⟨rfl, rfl, rfl, rfl⟩, rfl, rfl, rfl, rfl, rfl, ?_⟩
  intro e he un o it ⟨h1, h2, h3, h4⟩
  have he : e = { cls := .normal, seq := 2 } := by simpa [scanning, holding, inLine, stock] using he
  subst he
  have h1 : unitB = un := Option.some.inj h1
  subst h1
  have h2 : web = o := Option.some.inj h2
  subst h2
  have h3 : ({ sku := 4100, image := 5, profile := 0, quantity := 2, reprints := 0 } : Item) = it := Option.some.inj h3
  subst h3
  exact absurd h4 (by decide)

/-- The footswitch outside its conditions and over each contents; SKIP of garment 1, whose unit is IN_LINE. -/
theorem witness_OperatorPresses :
    let s := standing .load (inLine .running stock)
    link.car.line = .idle ∧ (inLine .running link).car.load.working = true ∧
    contentsAt .load (inLine .running link) = .unknown ∧ contentsAt .load (holding .load .empty (inLine .running link)) = .empty ∧
    contentsAt .load s = .garment 1 ∧ s.car.load.working = true ∧ s.car.index = .none ∧ Keyed s ∧ garment 1 s = some tee ∧
    orderOf tee.order s = some (0, web) ∧ unitSeq 0 tee.item tee.index s = some 1 ∧ tabGet 1 s.ord.units = some unitA ∧
    unitA.state = .inLine ∧ web.items[unitA.item]?.isSome = true ∧ (∀ n, contentsAt .load link ≠ .garment n) :=
  ⟨rfl, rfl, rfl, rfl, rfl, rfl, rfl, stock_keyed, rfl, rfl, rfl, rfl, rfl, rfl, (fun _ h => nomatch h)⟩

theorem witness_TransferCompletes :
    let s : State := { standing .unload stock with
      car := { (standing .unload stock).car with transfer := .running }
      ctc := { stock.ctc with gateHeld := true, entrant := some 1 } }
    link.car.transfer ≠ .running ∧ s.car.transfer = .running ∧ s.ctc.entrant = some 1 := by
  refine ⟨by decide, rfl, rfl⟩

/-! ## Witnesses: alarms and inputs -/

/-- An instance that does not exist, a stale count, each state and sense, a hot wait that ends; drill steps 0 to 7. -/
theorem witness_AcknowledgementAndDrill :
    let warm : Garment := { tee with profile := { tee.profile with dwell := 1 } }
    let wait : State := { standing .flash (inLine .running stock) with
      ptr := { stock.ptr with flashJob := .hot, flashReading := 2500 } }
    let s : State := alarmIs 6 Alarm.powerOn.passed
      { wait with car := { wait.car with garments := [(1, warm)] } }
    Reads link ∧ alarmIndex 15 0 = none ∧ alarmIndex 7 1 = none ∧ alarmIndex 14 0 = some 19 ∧ (alarm 19 link).count ≠ 1 ∧
    link.shf.shuttle ≠ .stopped ∧ (alarm 0 link).state = .idle ∧
    (alarm 0 (alarmIs 0 Alarm.powerOn.begun link)).state = .active ∧ senseAt 0 link = .edgeLevel ∧
    (alarm 19 (alarmIs 19 Alarm.powerOn.begun link)).state = .active ∧ senseAt 19 link = .edge ∧
    (alarm 19 (alarmIs 19 Alarm.powerOn.passed link)).state = .latched ∧
    Reads s ∧ (alarm 6 s).count = 1 ∧ (alarm 6 s).state = .latched ∧ (alarm 6 s).simulated = false ∧
    s.ptr.flashJob = .hot ∧ s.car.line ≠ .halted ∧ s.car.flash.working = true ∧ s.car.index = .none ∧
    contentsAt .flash s = .garment 1 ∧ garment 1 s = some warm ∧ 0 < warm.profile.dwell ∧ s.ptr.flashFaulted = false ∧
    warm.profile.tfMin ≤ s.ptr.flashReading ∧ s.ptr.flashReading ≤ warm.profile.tfMax ∧
    link.car.line = .idle ∧ (inLine .running link).car.line = .running ∧ link.alm.drill ≤ 7 ∧ Shaped stock := by
  refine ⟨link_reads, rfl, rfl, rfl, by decide, by decide, rfl, rfl, rfl, rfl, rfl, rfl, ⟨rfl, rfl, rfl, .inl rfl⟩, rfl, rfl, rfl, rfl,
    by decide, rfl, rfl, rfl, rfl, by decide, rfl, by decide, by decide, rfl, rfl, by decide, stock_shaped⟩

/-- FLASH_HOT acknowledged in a hot wait: LATCHED, and ACTIVE under the sense EDGE, with a reading below, above and in the
window and a faulted one; in HALTED, where the resume decides; and where nothing is decided, with a SIMULATED instance and a RELEASED station. -/
theorem witness_AcknowledgementAndDrill_flash :
    let warm : Garment := { tee with profile := { tee.profile with dwell := 1 } }
    let wait : Nat → Alarm → LineState → State := fun r a l => alarmIs 6 a { standing .flash (inLine l stock) with
      ptr := { stock.ptr with flashJob := .hot, flashReading := r }
      prf := { stock.prf with line := { stock.prf.line with senses := List.replicate 14 .edge } }
      car := { (standing .flash (inLine l stock)).car with garments := [(1, warm)] } }
    let s := wait 2501 Alarm.powerOn.begun .running
    let cold := wait 999 Alarm.powerOn.passed .running
    alarmIndex 7 0 = some 6 ∧ Reads s ∧ Shaped s ∧ (alarm 6 s).count = 1 ∧ (alarm 6 s).simulated = false ∧
    ((alarm 6 s).state = .active ∧ senseAt 6 s = .edge) ∧ s.ptr.flashJob = .hot ∧ s.car.line ≠ .halted ∧
    s.car.flash.working = true ∧ s.car.index = .none ∧ contentsAt .flash s = .garment 1 ∧ garment 1 s = some warm ∧
    0 < warm.profile.dwell ∧ warm.profile.tfMax < s.ptr.flashReading ∧ (alarm 6 s).present = true ∧
    ((alarm 6 cold).state = .latched ∧ (alarm 6 cold).present = false ∧ cold.ptr.flashFaulted = false ∧
      cold.ptr.flashReading ≤ warm.profile.tfMax ∧ cold.ptr.flashReading < warm.profile.tfMin) ∧
    ((wait 2000 Alarm.powerOn.passed .halted).car.line = .halted ∧
      (alarm 6 (wait 2000 Alarm.powerOn.passed .halted)).state = .latched) ∧
    (alarm 6 (wait 2000 { Alarm.powerOn.passed with simulated := true } .running)).simulated = true := by
  refine ⟨rfl, ⟨rfl, rfl, rfl, .inl rfl⟩, ⟨rfl, rfl, rfl, rfl, rfl, rfl, rfl, by decide⟩, rfl, rfl, ⟨rfl, rfl⟩, rfl, by decide, rfl,
    rfl, rfl, rfl, by decide, by decide, rfl, ⟨rfl, rfl, rfl, by decide, by decide⟩, ⟨rfl, rfl⟩, rfl⟩

/-- A STOPPED shuttle at the acknowledgement of ENCODER: IDLE, SIMULATED, with a HELD print in a line that moves and in
one that does not, and with nothing at PRINT outside HALTED and in it. -/
theorem witness_AcknowledgementAndDrill_encoder :
    let stopped : PrintJob → LineState → Alarm → State := fun j l a =>
      alarmIs 3 a { inLine l link with shf := { link.shf with shuttle := .stopped, job := j } }
    let once : Alarm := Alarm.powerOn.passed
    Reads (stopped .held .running once) ∧ alarmIndex 4 0 = some 3 ∧ (stopped .held .running once).shf.shuttle = .stopped ∧
    (alarm 3 (stopped .held .running once)).state = .latched ∧ (alarm 3 (stopped .held .running once)).count = 1 ∧
    (alarm 3 (stopped .held .running once)).simulated = false ∧ Shaped (stopped .held .running once) ∧
    (alarm 3 (stopped .none .idle .powerOn)).state = .idle ∧ (stopped .held .stopped once).car.line = .stopped ∧
    (alarm 3 (stopped .held .running { once with simulated := true })).simulated = true ∧
    (stopped .waiting .stopped once).shf.job = .waiting ∧ (stopped .none .halted once).car.line = .halted := by
  refine ⟨⟨rfl, rfl, rfl, .inl rfl⟩, rfl, rfl, rfl, rfl, rfl, ⟨rfl, rfl, rfl, rfl, rfl, rfl, rfl, by decide⟩, rfl, rfl, rfl, rfl,
    rfl⟩

/-- ESTOP absent with the line RUNNING and IDLE, and present; guards 1 and 4 with GUARD absent and present. -/
theorem witness_SafetyInputs :
    let low : State := alarmIs 1 Alarm.powerOn.begun { link with pins := { link.pins with guards := 14 } }
    (alarm 0 (inLine .running stock)).present = false ∧ (inLine .running stock).car.line = .running ∧
    Shaped (inLine .running stock) ∧ link.car.line = .idle ∧ (alarm 0 (alarmIs 0 Alarm.powerOn.begun link)).present = true ∧
    (1 ≤ 1 ∧ 4 ≤ 4) ∧ link.prf.line.guardMask &&& ~~~(link.pins.guards &&& ~~~(1#4 <<< (4 - 1))) ≠ 0 ∧
    (alarm 1 link).present = false ∧ (alarm 1 low).present = true ∧
    ¬ low.prf.line.guardMask &&& ~~~(low.pins.guards ||| 1#4 <<< (1 - 1)) ≠ 0 ∧
    ({ link with car := { link.car with index := .moving } } : State).car.index = .moving := by
  refine ⟨rfl, rfl, stock_shaped, rfl, rfl, ⟨by decide, by decide⟩, by decide, rfl, rfl, by decide, rfl⟩

/-- A buffer of 31 and of 32 characters, a discarding line and an empty one. -/
theorem witness_ScannerLines : (List.replicate 31 (0x30 : Byte)).length < 32 ∧ 32 ≤ (List.replicate 32 (0x30 : Byte)).length ∧
    (0x30 : Byte) ≠ 0x0A ∧ (0x30 : Byte) ≠ 0x0D ∧ link.alm.load.discarding = false ∧ link.alm.load.buffer = [] ∧
    ({ buffer := [], discarding := true } : Scanner).discarding = true := by decide

/-! ## Witnesses: PRETREAT, FLASH and PRINT -/

theorem witness_CellTimes : (0 : Nat) < 8 ∧ 12 < 13 ∧ LineSettings.powerOn.laneDelays[7]? = some 40 ∧
    cellRatio .white { white := 864000, colour := 0 } = 1000 ∧ cellRatio .all { white := 864000, colour := 3456000 } = 1000 ∧
    cellRatio sprayed.basis { white := 17280, colour := 0 } < sprayed.pFloor ∧
    sprayed.pFloor ≤ cellRatio sprayed.basis { white := 25920, colour := 0 } ∧ 999 < 1000 ∧ sprayed.tMax ≤ 4000 := by
  decide

/-- A schedule whose lane 0 sprays. -/
def plan600 : Schedule :=
  { times := 600 :: List.replicate 103 0, speed := 400, window := 1000, delays := List.replicate 8 40, flow := 120,
    fluid := 72000 }

/-- Garment 1 at PRETREAT in a RUNNING line, with that schedule and a job. -/
def spraying (j : PretreatJob) (row : Nat) : State :=
  { standing .pretreat (inLine .running stock) with
    ptr := { stock.ptr with
      job := j, schedule := some plan600, row := row, valves := [.waiting, .open_ 0] ++ List.replicate 6 .closed } }

theorem witness_Pretreatment :
    let returning : State := { link with ptr := { link.ptr with bar := .back, barFrom := some 0 } }
    let thirsty : Schedule := { plan600 with fluid := 4750000001 }
    Reads stock ∧ stock.ptr.job ≠ .held ∧ stock.ptr.job ≠ .waiting ∧ (spraying .held 0).ptr.job = .held ∧
    (spraying .held 0).ptr.schedule = some plan600 ∧
    plan600.fluid + stock.prf.line.tankReserve * 1000000 ≤ stock.prf.line.tankCap * 1000000 ∧
    stock.prf.line.tankCap * 1000000 < thirsty.fluid + stock.prf.line.tankReserve * 1000000 ∧
    ((spraying .waiting 0).ptr.job = .waiting ∧ (spraying .waiting 0).car.line = .running ∧
      (spraying .waiting 0).ptr.bar = .parked) ∧ stock.ptr.schedule = none ∧
    (spraying .spraying 0).ptr.job = .spraying ∧ (spraying .spraying 0).ptr.valves[0]? = some .waiting ∧
    (spraying .spraying 0).ptr.valves[1]? = some (.open_ 0) ∧ (spraying .spraying 11).ptr.row < 12 ∧
    12 ≤ (spraying .spraying 12).ptr.row ∧ (spraying .spraying 12).car.index = .none ∧
    contentsAt .pretreat (spraying .spraying 12) = .garment 1 ∧
    returning.ptr.bar = .back ∧ returning.ptr.barFrom.isSome = true ∧ returning.ptr.job ≠ .held ∧
    returning.ptr.job ≠ .waiting ∧ ¬(link.ptr.bar = .back ∧ link.ptr.barFrom.isSome = true) ∧
    (let held : State := { spraying .held 0 with ptr := { (spraying .held 0).ptr with bar := .back, barFrom := some 0 } }
     held.ptr.bar = .back ∧ held.ptr.barFrom.isSome = true ∧ held.ptr.job = .held ∧ held.ptr.schedule = some plan600) := by
  refine ⟨stock_reads, ?_, ?_, rfl, rfl, ?_, ?_, ⟨rfl, rfl, rfl⟩, rfl, rfl, rfl, rfl, ?_, ?_, rfl, rfl, rfl, rfl, ?_, ?_, ?_,
    rfl, rfl, rfl, rfl⟩ <;>
  decide

/-- Garment 1 at FLASH with a dwell of 1 s, in a job. -/
def pressing (j : FlashJob) : State :=
  let s := standing .flash (inLine .running stock)
  { s with
    ptr := { stock.ptr with flashJob := j }
    car := { s.car with garments := [(1, { tee with profile := { tee.profile with dwell := 1 } })] } }

/-- In the cold wait: a reading at each bound of the window, one below it, one above it, and a faulted one. -/
theorem witness_FlashPress :
    let g : Garment := { tee with profile := { tee.profile with dwell := 1 } }
    Shaped (pressing .cold) ∧ (alarm 6 (pressing .cold)).present = false ∧ (pressing .pressing).ptr.flashJob = .pressing ∧
    (pressing .cold).ptr.flashJob = .cold ∧ (pressing .cold).car.flash.working = true ∧ (pressing .cold).car.index = .none ∧
    contentsAt .flash (pressing .cold) = .garment 1 ∧ garment 1 (pressing .cold) = some g ∧ 0 < g.profile.dwell ∧
    ¬ (false = true ∨ 3000 < 1000) ∧ g.profile.tfMin ≤ 1000 ∧ 2500 ≤ g.profile.tfMax ∧ 999 < g.profile.tfMin ∧
    999 ≤ g.profile.tfMax ∧ g.profile.tfMax < 2501 ∧ 3000 < 3001 ∧ (pressing .none).ptr.flashJob ≠ .cold := by
  refine ⟨stock_shaped, rfl, rfl, rfl, rfl, rfl, rfl, rfl, ?_, ?_, ?_, ?_, ?_, ?_, ?_, ?_, ?_⟩ <;> decide

/-- In the hot wait, with FLASH_HOT IDLE, ACTIVE and, after the end, LATCHED: a reading above the limit, one below the
window, one at its lower bound. -/
theorem witness_FlashPress_hot :
    let g : Garment := { tee with profile := { tee.profile with dwell := 1 } }
    let warned := alarmIs 6 Alarm.powerOn.begun (pressing .hot)
    Shaped (pressing .hot) ∧ (pressing .hot).ptr.flashJob = .hot ∧ (pressing .hot).car.flash.working = true ∧
    (pressing .hot).car.index = .none ∧ contentsAt .flash (pressing .hot) = .garment 1 ∧ garment 1 (pressing .hot) = some g ∧
    0 < g.profile.dwell ∧ (pressing .hot).car.line = .running ∧ (alarm 6 (pressing .hot)).state = .idle ∧
    (inLine .halted (pressing .hot)).car.line = .halted ∧ (alarm 6 (inLine .halted (pressing .hot))).state = .idle ∧
    (alarm 6 warned).present = true ∧ (alarm 6 (endedAt 6 warned)).state = .latched ∧
    (alarm 6 (endedAt 6 warned)).simulated = false ∧ g.profile.tfMax < 2501 ∧ 999 < g.profile.tfMin ∧ g.profile.tfMin ≤ 1000 :=
  ⟨stock_shaped, rfl, rfl, rfl, rfl, rfl, by decide, rfl, rfl, rfl, rfl, rfl, rfl, rfl, by decide, by decide, by decide⟩

/-- In HALTED, an acknowledgement of FLASH_HOT in a hot wait leaves the garment HOT and its wait over (R105). -/
theorem test_halted_hot_wait_over :
    let s := acknowledgeAt 6 (alarmIs 6 Alarm.powerOn.passed (inLine .halted (pressing .hot)))
    s.ptr.flashJob = .hot ∧ s.ptr.hotOver = true := by decide

/-- After a new onset in HALTED, which has ended, the resume still decides that garment: a reading in the window closes
the press (R105). -/
theorem test_resume_decides_hot :
    let s := alarmIs 6 Alarm.powerOn.passed (inLine .halted (pressing .hot))
    let t := resumeFlash { s with ptr := { s.ptr with hotOver := true, flashReading := 1000 } }
    t.ptr.flashJob = .pressing ∧ t.ptr.pressClosed = true ∧ (alarm 6 t).state = .latched := by decide

/-- Garment 1 at PRINT in a RUNNING line with stroke 2 planned over lines 0 to 15, in a job and a motion. -/
def printing (j : PrintJob) (m : Shuttle) : State :=
  { standing .print (inLine .running stock) with
    shf := { stock.shf with
      job := j, shuttle := m, noSignal := some 0, stroke := if j = .stroke then 2 else 0,
      plan := { strokes := [2], image := some (0, 16), mark := none } } }

/-- The running stroke of FDP in small. -/
def strokeOn : Stroke :=
  { map := [], interval := 96, exempt := 0, idle := [(9600, 95)], lostDots := 0, tickles := 0, lost := [], read := [],
    mark := none }

/-- A planned garment with every channel's spit count above 0, and with all of them 0; a spit in progress. -/
theorem witness_PrintSteps :
    let s := printing .waiting .home
    let quiet : State := { s with prf := { s.prf with spit := { s.prf.spit with counts := List.replicate 5 0 } } }
    let spit : State := { printing .spit .home with fdp := { stock.fdp with spit := some { channels := [(0, 20)], map := [] } } }
    (s.shf.job = .waiting ∧ s.car.line = .running ∧ s.shf.shuttle = .home ∧ s.car.index = .none) ∧
    contentsAt .print s = .garment 1 ∧ garment 1 s = some tee ∧ imageOf 5 s = some (0, art) ∧
    (0 < 5 ∧ s.prf.spit.counts[0]? = some 20 ∧ 0 < 20 ∧ ∃ m, s.prf.spit.masks[0]? = some m ∧
      m.getLsbD s.fdp.spitCounter = true) ∧
    (∀ ch < 5, ∀ d, quiet.prf.spit.counts[ch]? = some d → ¬ 0 < d) ∧ quiet.shf.plan.strokes = 2 :: [] ∧
    (∀ n, contentsAt .print link ≠ .garment n) ∧ link.shf.job ≠ .spit ∧ spit.shf.job = .spit ∧
    spit.fdp.spit.isSome = true ∧ spit.shf.plan.strokes = 2 :: [] ∧ spit.car.index = .none ∧
    contentsAt .print spit = .garment 1 := by
  refine ⟨⟨rfl, rfl, rfl, rfl⟩, rfl, rfl, rfl, ⟨by decide, rfl, by decide, _, rfl, by decide⟩, ?_, rfl, (fun _ h => nomatch h),
    by decide, rfl, rfl, rfl, rfl, rfl⟩
  intro ch hc d hd
  have : ch = 0 ∨ ch = 1 ∨ ch = 2 ∨ ch = 3 ∨ ch = 4 := by omega
  rcases this with rfl | rfl | rfl | rfl | rfl <;> · have hd : 0 = d := Option.some.inj hd
                                                     omega

/-- A spit of channel W alone whose nozzles are all DEAD: the channel is among those that fire, and no drop is sent. -/
theorem test_spit_dead_waits :
    let s := printing .waiting .home
    let dead : State := { s with
      prf := { s.prf with spit := { s.prf.spit with counts := [1, 0, 0, 0, 0] } }
      fdp := { s.fdp with nozzles := (List.range 9600).map fun x => (x, .dead) } }
    (startPrint dead).shf.job = .spit ∧ (startPrint dead).fdp.spit.isSome = true := by
  decide

/-- A homing with nothing at PRINT, a return with a stroke to go and one with none, a HELD print; the timer in each. -/
theorem witness_ShuttleHomeAndSignal :
    let last : State := { printing .return_ .return_ with shf := { (printing .return_ .return_).shf with
      plan := { strokes := [], image := some (0, 16), mark := none } } }
    let run : State := { printing .stroke .forward with fdp := { stock.fdp with stroke := some strokeOn } }
    link.shf.shuttle = .homing ∧ link.shf.job = .none ∧ (printing .stroke .forward).shf.shuttle = .forward ∧
    (printing .return_ .return_).shf.job = .return_ ∧ (printing .return_ .return_).shf.plan.strokes = 2 :: [] ∧
    (printing .return_ .return_).car.index = .none ∧ contentsAt .print (printing .return_ .return_) = .garment 1 ∧
    last.shf.plan.strokes = [] ∧ garment 1 last = some tee ∧ tee.image = some 5 ∧ beforePrinted tee = true ∧
    imageOf 5 last = some (0, art) ∧ (printing .held .homing).shf.job = .held ∧ link.shf.noSignal.isSome = true ∧
    (∀ n, contentsAt .print link ≠ .garment n) ∧ (printing .held .homing).car.print.working = true ∧
    run.shf.noSignal.isSome = true ∧ run.shf.job = .stroke ∧ run.fdp.stroke = some strokeOn ∧ Shaped run ∧
    (printing .spit .home).shf.job = .spit ∧ (printing .spit .home).fdp.stroke = none ∧ Shaped (printing .spit .home) ∧
    (printing .spit .home).car.print.working = true ∧ (printing .return_ .return_).fdp.stroke = none :=
  ⟨rfl, rfl, rfl, rfl, rfl, rfl, rfl, rfl, rfl, rfl, rfl, rfl, rfl, rfl, (fun _ h => nomatch h), rfl, rfl, rfl, rfl,
    stock_shaped, rfl, rfl, stock_shaped, rfl, rfl⟩

/-- The lost signal with the image of a stroke's garment in the table and with no image, and at a PRINT station that is
RELEASED already. -/
theorem witness_ShuttleHomeAndSignal_aborts :
    let run : State := { printing .stroke .forward with fdp := { stock.fdp with stroke := some strokeOn } }
    let bare : State := { run with car := { run.car with garments := [(1, { tee with image := none })] } }
    let done : State := { printing .none .homing with
      car := { (printing .none .homing).car with print := { working := false, hold := .none } } }
    (run.shf.noSignal.isSome = true ∧ run.car.index = .none ∧ contentsAt .print run = .garment 1 ∧
      garment 1 run = some tee ∧ tee.image = some 5 ∧ imageOf 5 run = some (0, art)) ∧
    ((garment 1 bare).isSome = true ∧ (garment 1 bare).bind Garment.image = none) ∧
    (done.shf.noSignal.isSome = true ∧ done.shf.job = .none ∧ contentsAt .print done = .garment 1 ∧
      garment 1 done = some tee ∧ done.car.print.working = false) :=
  ⟨⟨rfl, rfl, rfl, rfl, rfl, rfl⟩, ⟨rfl, rfl⟩, ⟨rfl, rfl, rfl, rfl, rfl⟩⟩

/-- `run` at a position that it has reached, in a framer state. -/
def stroking (p : Nat) (f : Framer) : State :=
  { printing .stroke .forward with
    shf := { (printing .stroke .forward).shf with pos := p, reach := p, framer := f, tol := 8 }
    fdp := { stock.fdp with stroke := some strokeOn } }

/-- Work that a halt cuts short or lets stay: a traverse, a pressing, a cold wait, a hot wait, a spit, a
stroke, and a return before a stroke. -/
theorem witness_Halts_work :
    AtStation .pretreat 1 (spraying .spraying 0) ∧ (spraying .spraying 0).ptr.job = .spraying ∧
    (spraying .spraying 0).ptr.schedule = some plan600 ∧
    (AtStation .flash 1 (pressing .pressing) ∧ (pressing .pressing).ptr.flashJob = .pressing ∧
      (garment 1 (pressing .pressing)).isSome = true ∧
      ({ stock.ptr with flashJob := .pressing, dwellFrom := some 0 } : Ptr).dwellFrom = some 0) ∧
    ((pressing .cold).ptr.flashJob = .cold ∧ (pressing .hot).ptr.flashJob = .hot) ∧
    (AtStation .print 1 (stroking 4000 .sync) ∧ InPrint (stroking 4000 .sync) ∧ InPrint (printing .spit .home) ∧
      InPrint (printing .return_ .return_) ∧ garment 1 (stroking 4000 .sync) = some tee ∧ tee.image = some 5 ∧
      imageOf 5 (stroking 4000 .sync) = some (0, art)) ∧
    ¬ InPrint stock := by
  refine ⟨⟨rfl, rfl⟩, rfl, rfl, ⟨⟨rfl, rfl⟩, rfl, rfl, rfl⟩, ⟨rfl, rfl⟩, ⟨⟨rfl, rfl⟩, ?_, ?_, ?_, rfl, rfl, rfl⟩, ?_⟩ <;>
    unfold InPrint <;> decide

/-- What a resume goes on with in a HALTED line: a CUT and a HELD garment at PRETREAT, a CUT and an undecided one at
FLASH, a CUT print with the shuttle HOME and STOPPED, a stopped last return, a WAITING print, and a STOPPED shuttle. -/
theorem witness_LineStartAndStop_resume :
    let print : PrintJob → Shuttle → State := fun j m => inLine .halted (printing j m)
    startAllowed (print .cut .home) = true ∧ (print .cut .home).car.line = .halted ∧
    (AtStation .pretreat 1 (spraying .cut 0) ∧ (spraying .cut 0).ptr.job = .cut) ∧
    ((spraying .held 0).ptr.schedule = some plan600 ∧
      (spraying .held 0).ptr.tank < plan600.fluid + stock.prf.line.tankReserve * 1000000 ∧ Shaped (spraying .held 0) ∧
      { plan600 with fluid := 0 }.fluid + stock.prf.line.tankReserve * 1000000 ≤ 250000000) ∧
    (AtStation .flash 1 (pressing .cut) ∧ (pressing .cut).ptr.flashJob = .cut) ∧
    (AtStation .flash 1 (pressing .none) ∧ (garment 1 (pressing .none)).map (fun g => g.profile.dwell) = some 1 ∧
      (pressing .none).car.flash.working = true ∧ (pressing .none).ptr.flashJob = .none ∧
      (pressing .hot).ptr.flashJob = .hot ∧ (pressing .hot).ptr.hotOver = false ∧
      ({ stock.ptr with flashJob := .hot, hotOver := true } : Ptr).hotOver = true) ∧
    (AtStation .print 1 (print .cut .home) ∧ garment 1 (print .cut .home) = some tee ∧
      (∀ st, st ≠ .print → contentsAt st (print .cut .home) ≠ .garment 1) ∧ tee.image = some 5 ∧
      beforePrinted tee = true ∧ imageOf 5 (print .cut .home) = some (0, art)) ∧
    ((print .return_ .stopped).shf.job = .return_ ∧ (print .return_ .stopped).shf.shuttle = .stopped) ∧
    ((print .waiting .stopped).shf.shuttle = .stopped ∧ (print .waiting .stopped).shf.job = .waiting ∧
      ownerIdle 3 (print .waiting .stopped) = true ∧
      ownerIdle 3 (alarmIs 3 Alarm.powerOn.begun (print .waiting .stopped)) = false) ∧
    (print .waiting .home).shf.shuttle = .home := by
  refine ⟨by decide, rfl, ⟨⟨rfl, rfl⟩, rfl⟩, ⟨rfl, by decide, ⟨rfl, rfl, rfl, rfl, rfl, rfl, rfl, by decide⟩, by decide⟩, ⟨⟨rfl, rfl⟩, rfl⟩,
    ⟨⟨rfl, rfl⟩, rfl, rfl, rfl, rfl, rfl, rfl⟩, ⟨⟨rfl, rfl⟩, rfl, ?_, rfl, by decide, rfl⟩, ⟨rfl, rfl⟩,
    ⟨rfl, rfl, by decide, by decide⟩, rfl⟩
  rintro (_ | _ | _ | _ | _) <;> decide

/-- The count of line 0, a count outside the field, the last count of a stroke; a mark 8 counts off, and one 9 off. -/
theorem witness_ShuttleMotion :
    let off : State := { stroking 1929 .sync with shf := { (stroking 1929 .sync).shf with window := [false] } }
    link.shf.shuttle ≠ .forward ∧ (stroking 3839 .sync).shf.shuttle = .forward ∧ (stroking 3839 .sync).shf.pos = (3839 : Nat) ∧
    (stroking 3839 .sync).shf.reach = 3839 ∧ 3840 + 4 * 0 = 3839 + 1 ∧ 0 < 6240 ∧
    (stroking 3839 .sync).shf.plan.inField 2 0 = true ∧ (stroking 3839 .sync).shf.stroke = 2 ∧
    (stroking 3839 .sync).car.index = .none ∧ contentsAt .print (stroking 3839 .sync) = .garment 1 ∧
    (stroking 3839 .sync).fdp.stroke = some strokeOn ∧ (stroking 3903 .sync).shf.plan.inField 2 16 = false ∧
    (stroking 28799 .sync).shf.pos = (28799 : Nat) ∧ 28799 + 1 = 28800 ∧ garment 1 (stroking 28799 .sync) = some tee ∧
    (∀ k : Nat, k < 16 → 1 ≤ k → off.shf.tol < (off.shf.pos - (1920 * k : Nat)).natAbs) ∧
    ([false] ++ [false]).count false = 2 ∧ (stroking 1928 .sync).shf.tol ≤ 8 ∧
    ((stroking 1928 .sync).shf.pos - (1920 * 1 : Nat)).natAbs ≤ (stroking 1928 .sync).shf.tol ∧
    (stroking 3839 .sync).shf.framer = .sync ∧ (stroking 3839 .sync).shf.lastFire = none ∧
    printImage tee stock = some art ∧ printImage { tee with image := none } stock = none ∧
    (∀ y h, (stroking 3839 .sync).shf.plan.image = some (y, h) → 0 < h) := by
  refine ⟨?_, rfl, rfl, rfl, rfl, ?_, rfl, rfl, rfl, rfl, rfl, rfl, rfl, rfl, rfl, ?_, rfl, ?_, ?_, rfl, rfl, rfl, rfl, ?_⟩
  case refine_6 => rintro _ _ ⟨⟩; decide
  all_goals decide

/-- A snap from 8 counts off that reaches no line, one line and two, in SYNC and outside it, just after a FIRE line and
without one; the mark at 28,800; a backward count. -/
theorem witness_ShuttleMotion_snap :
    let at_ : Nat → Nat → Framer → Option Nat → State := fun p h f a => { stroking p f with
      shf := { (stroking p f).shf with lastFire := a, plan := { strokes := [2], image := some (480, h), mark := none } } }
    linesReached 5760 (at_ 5752 1 .sync none) = [480] ∧
    linesReached 5760 { at_ 5752 2 .los none with shf := { (at_ 5752 2 .los none).shf with
      plan := { strokes := [2], image := some (479, 2), mark := none } } } = [479, 480] ∧
    linesReached 5760 (at_ 5760 1 .sync none) = [] ∧ ¬ FiredJustNow (at_ 5752 1 .sync none) ∧
    FiredJustNow (at_ 5752 1 .sync (some 0)) ∧
    ((at_ 5752 1 .sync none).shf.pos - (1920 * 3 : Nat)).natAbs ≤ (at_ 5752 1 .sync none).shf.tol ∧
    ((at_ 28792 1 .sync none).shf.pos - (1920 * 15 : Nat)).natAbs ≤ (at_ 28792 1 .sync none).shf.tol ∧
    (at_ 5752 1 .sync none).fdp.stroke = some strokeOn ∧ contentsAt .print (at_ 5752 1 .sync none) = .garment 1 ∧
    garment 1 (at_ 28792 1 .sync none) = some tee ∧
    (at_ 5752 1 .sync none).shf.pos - 1 ≤ (at_ 5752 1 .sync none).shf.reach ∧ 5752 ≤ 28800 := by
  refine ⟨by decide +kernel, by decide +kernel, by decide +kernel, nofun, ⟨0, rfl, by decide⟩, by decide, by decide, rfl, rfl,
    rfl, by decide, by decide⟩

/-- Two lines at one forward snap in SYNC with no FIRE line before them, to a mark inside the stroke and to 28,800; the end
of the last stroke, and of one with another behind it, on an image whose print is active. -/
theorem witness_ShuttleMotion_sends :
    let active : Image := { art with printActive := true }
    let at_ : Nat → Nat → List Nat → State := fun p y l => { stroking p .sync with
      ims := { stock.ims with images := [(0, active)] }
      shf := { (stroking p .sync).shf with plan := { strokes := l, image := some (y, 2), mark := none } } }
    linesReached 5760 (at_ 5752 479 [2]) = [479, 480] ∧ linesReached 28800 (at_ 28792 6238 [2]) = [6239] ∧
    (at_ 5752 479 [2]).shf.framer = .sync ∧ ¬ FiredJustNow (at_ 5752 479 [2]) ∧
    (at_ 5752 479 [2]).fdp.stroke = some strokeOn ∧ contentsAt .print (at_ 5752 479 [2]) = .garment 1 ∧
    (at_ 28799 479 [2]).shf.plan.strokes.tail = [] ∧ (at_ 28799 479 [1, 2]).shf.plan.strokes.tail ≠ [] ∧
    (at_ 28799 479 [2]).shf.reach = 28799 ∧ garment 1 (at_ 28799 479 [2]) = some tee ∧ tee.image = some 5 ∧
    imageOf 5 (at_ 28799 479 [2]) = some (0, active) := by
  refine ⟨by decide +kernel, by decide +kernel, rfl, nofun, rfl, rfl, rfl, by decide, rfl, rfl, rfl, rfl⟩

/-- A mark at each state of the framer: the first and the second good mark of ACQUIRE, a bad one there; in SYNC a good mark
and the first bad one, and the second one with auto-resync on and off; in LOS. The mark window after each. -/
theorem witness_ShuttleMotion_marks :
    let f : Framer → Nat → List Bool → Bool → Shf := fun st n w auto =>
      { (stroking 1928 st).shf with good := n, window := w, autoResync := auto }
    ((f .acquire 0 [] true).framer = .acquire ∧ (f .acquire 0 [] true).good = 0 ∧ 1 ≤ (f .acquire 1 [] true).good) ∧
    (f .sync 2 [true, false, true, true] true).lossRule = .twoOfFour ∧
    marksAfter true (f .sync 2 [true, false, true, true] true) = [false, true, true, true] ∧
    (marksAfter true (f .sync 2 [true, false, true, true] true)).count false < 2 ∧
    (marksAfter false (f .sync 2 [] true)).count false < 2 ∧
    2 ≤ (marksAfter false (f .sync 2 [true, false] true)).count false ∧ (f .sync 2 [true, false] true).autoResync = true ∧
    (f .sync 2 [true, false] false).autoResync = false ∧ (f .los 2 [] true).framer = .los := by
  decide

/-- A BLANK line whose page read is uncorrectable, at an encoder count and at a forward snap, and a SKIP line; a snap to
28,800 that reaches no line more. -/
theorem witness_ShuttleMotion_reads :
    let wide : Image := { art with channels := 2 }
    let at_ : Framer → Option Nat → State := fun f a => { stroking 3839 f with
      ims := { stock.ims with images := [(0, wide)] }, shf := { (stroking 3839 f).shf with lastFire := a } }
    (at_ .acquire none).shf.framer ≠ .sync ∧ FiredJustNow (at_ .sync (some 0)) ∧
    linesReached 3840 (at_ .acquire none) = [0] ∧ ((at_ .acquire none).shf.pos - (1920 * 2 : Nat)).natAbs ≤ 8 ∧
    (readBands 1 2 0 (at_ .acquire none, [.uncorrectable])).1.ims.retired = [0] ∧
    linesReached 28800 (stroking 28792 .sync) = [] := by
  refine ⟨by decide, ⟨0, rfl, by decide⟩, ?_, by decide, ?_, ?_⟩ <;> decide +kernel

theorem witness_LineComposition :
    garment 1 (stroking 3840 .sync) = some tee ∧ (stroking 3840 .sync).fdp.stroke = some strokeOn ∧
    nozzleState kMap (9600 * 4 + 4800 * 0 + 1002) = some .dead ∧ nozzleState kMap (9600 * 4 + 4800 * 1 + 1002) = some .dead ∧
    nozzleState kMap (9600 * 4 + 4800 * 0 + 1001) = some .weak ∧ nozzleState kMap (9600 * 4 + 4800 * 0 + 1000) ≠ some .dead ∧
    (255 < 256 ∧ 65535 < 65536 ∧ 5 < 6 ∧ 3 < 4 ∧ 7 < 8) := by
  refine ⟨rfl, rfl, rfl, rfl, rfl, ?_, ?_⟩ <;> decide

/-- A dot inside the image on a page, on a BLANK entry and outside it; a line that reads W's first band-plane, which is
BLANK, LOST or a page, whose read is uncorrectable. -/
theorem witness_LineComposition_reads :
    let s := stroking 3840 .sync
    let with_ : Plane → State := fun p => { s with ims := { s.ims with images := [(0, { art with planes := [p] })] } }
    (4 = 4 ∧ strokeOn.mark = none) ∧ art.channels.getLsbD 0 = true ∧ art.channels.getLsbD 1 = false ∧
    (art.y0 ≤ 15 ∧ 15 < art.y0 + art.h ∧ art.x0 ≤ 15 ∧ 15 < art.x0 + art.w ∧ art.y0 + art.h ≤ 16) ∧
    (channelsIn art.channels).idxOf 0 * ((art.h + 47) / 48) + (15 - art.y0) / 48 = 0 ∧ art.planes[0]? = some (.page 0 true) ∧
    garment 1 s = some tee ∧ s.fdp.stroke = some strokeOn ∧ tee.image = some 5 ∧ imageOf 5 s = some (0, art) ∧
    0 < (art.h + 47) / 48 ∧ tabGet 0 s.ims.images = some art ∧ Keyed (with_ .blank) ∧ Shaped (with_ .blank) ∧
    tabGet 0 (with_ .lost).ims.images = some { art with planes := [.lost] } ∧ art.state = .ready ∧
    [ReadResult.uncorrectable].headD .clean = .uncorrectable := by
  refine ⟨⟨rfl, rfl⟩, rfl, rfl, ⟨?_, ?_, ?_, ?_, ?_⟩, rfl, rfl, rfl, rfl, rfl, rfl, ?_, rfl, ⟨rfl, rfl, rfl, rfl, rfl⟩,
    stock_shaped, rfl, rfl, rfl⟩ <;> decide

/-- R116, R118, R136: a snap over lines 479 and 480 in SYNC fires the first and skips the second at the same event; what
the FIRE line sent stands, and the SKIP sent nothing. -/
theorem test_snap_fires_then_skips :
    let s : State := { stroking 5752 .sync with shf := { (stroking 5752 .sync).shf with
      plan := { strokes := [2], image := some (479, 2), mark := none } } }
    (match exec (.scaleMark []) s with
      | .next t => (t.fdp.head.map HeadLine.line, t.shf.skipped, t.shf.lastFire)
      | _ => ([], 0, none)) = ([some 479], 1, some 0) := by decide +kernel

/-! ## Witnesses: the tunnel and the exit -/

/-- A garment that needs 125,000 units, and one that needs 60,000 and bears 90,000, which no speed up to 800 gives. -/
def needy : Garment := { tee with dReq := 125000, dMax := 200000 }
def tender : Garment := { tee with dReq := 60000, dMax := 90000 }

/-- No speed of the range suits `tender`, wherever another garment rides. -/
theorem tender_alone (n : Nat) : ¬ commonSpeed tender (riding n tender hot) := by
  rintro ⟨v, -, hv, h⟩
  have hp : pairOf tender 0 (riding n tender hot) = some { lo := 834, hi := some 1250 } := by
    change pairOf tender 0 hot = _
    decide
  have hl : 834 ≤ v := (h _ (.inr hp)).1
  have hs : v ≤ 800 := hv
  omega

/-- Each outcome of the admission test: the list full, the last member at 249.9 mm, no common speed before a heated
member and before none, a common speed before a member at 250 mm and on an empty belt. -/
theorem witness_SpeedAndAdmission_claims :
    let full : State := { hot with ctc := { hot.ctc with tunnel := List.replicate 12 { serial := 9, travel := 2500 } } }
    claimFails needy .tunnelFull full ∧ claimFails needy .spacing (riding 2499 needy hot) ∧
    claimFails tender .cureWait (riding 2500 tender hot) ∧ claimPasses tender true (riding 30000 tender hot) ∧
    claimPasses needy false (riding 2500 needy hot) ∧ claimPasses needy false hot := by
  refine ⟨.inl ⟨rfl, by decide⟩, .inr (.inl ⟨rfl, by decide, fun h => ?_⟩),
    .inr (.inr ⟨rfl, by decide, ?_, tender_alone _, ⟨_, List.mem_singleton.2 rfl, by decide⟩⟩),
    ⟨by decide, ?_, .inr ⟨rfl, tender_alone _, ?_⟩⟩, ⟨by decide, ?_, .inl ⟨rfl, 500, by decide, by decide, ?_⟩⟩,
    ⟨by decide, nofun, .inl ⟨rfl, 500, by decide, by decide, ?_⟩⟩⟩
  · exact absurd (h _ rfl) (by decide)
  · rintro _ ⟨⟩; decide
  · rintro _ ⟨⟩; decide
  · simp [riding]
  · rintro _ ⟨⟩; decide
  · rintro pr (⟨r, hr, g, -, hg, hp⟩ | hp)
    · cases List.mem_singleton.1 hr; cases hg
      rw [show pairOf needy (2500 / 10) (riding 2500 needy hot) = some { lo := 344, hi := some 550 } by decide] at hp
      cases hp
      exact ⟨by decide, by rintro _ ⟨⟩; decide⟩
    · rw [show pairOf needy 0 (riding 2500 needy hot) = some { lo := 375, hi := some 600 } by decide] at hp
      cases hp
      exact ⟨by decide, by rintro _ ⟨⟩; decide⟩
  · rintro pr (⟨r, hr, -⟩ | hp)
    · cases hr
    · rw [show pairOf needy 0 hot = some { lo := 375, hi := some 600 } by decide] at hp
      cases hp
      exact ⟨by decide, by rintro _ ⟨⟩; decide⟩

/-- Each zone of a position, each case of the speed pairs, and each result of the admission test. -/
theorem witness_SpeedAndAdmission :
    let a : Garment := needy
    let s : State := riding 2499 a hot
    (999 < 1000 ∧ 1999 < 2000 ∧ 2999 < 3000) ∧ ({ a with d := 200000 } : Garment).dMax ≤ 200000 ∧
    (a.dReq ≤ ({ a with d := 125000 } : Garment).d ∧ ({ a with d := 125000 } : Garment).d < a.dMax) ∧
    exposure a 0 link = 0 ∧ 0 < exposure a 0 hot ∧ s.prf.cure.sMin ≤ s.prf.cure.sMax ∧ garment 1 s = some a := by
  refine ⟨⟨?_, ?_, ?_⟩, ?_, ⟨?_, ?_⟩, ?_, ?_, ?_, rfl⟩ <;> decide

/-- A sample that finds the line RUNNING with good readings, with a rider in Z3; and waiting claims. -/
theorem witness_TunnelSample :
    let s : State := riding 29999 tee (inLine .running hot)
    let claim : State := { inLine .running stock with
      ctc := { stock.ctc with unloadClaim := some 1, refeedClaim := some 1, sampleCount := 9 } }
    Shaped s ∧ s.car.line = .running ∧ ownerIdle 7 s = true ∧ ownerIdle 13 s = true ∧
    s.prf.cure.dMin ≤ s.prf.cure.dMax ∧ s.prf.cure.tSet[2]? = some 1600 ∧ garment 1 s = some tee ∧
    (s.ctc.tunnel.map Rider.serial).Nodup ∧ { serial := 1, travel := 29999 } ∈ s.ctc.tunnel ∧ 29999 < 30000 ∧
    29999 / 10000 = 2 ∧ s.ctc.unloadClaim = none ∧ s.ctc.refeedClaim = none ∧ s.ctc.sampleCount + 1 < 10 ∧
    claim.ctc.unloadClaim = some 1 ∧ claim.ctc.refeedClaim = some 1 ∧ claim.ctc.gateHeld = false ∧
    garment 1 claim = some tee ∧ ¬ claim.ctc.sampleCount + 1 < 10 := by
  refine ⟨⟨rfl, rfl, rfl, rfl, rfl, rfl, rfl, by decide⟩, rfl, rfl, rfl, by decide, rfl, rfl, by decide, by decide, by decide,
    by decide, rfl, rfl, by decide, rfl, rfl, rfl, rfl, by decide⟩

/-- Z1's ZONE_TRIP and ZONE_LOW absent and present at a run's last sample, with a reading at each bound and a faulted
one. -/
theorem witness_TunnelSample_runs :
    let cure : CureSettings := { hot.prf.cure with samples := 3 }
    let s : State := { inLine .running hot with prf := { hot.prf with cure := cure } }
    let low := alarmIs 10 Alarm.powerOn.begun (alarmIs 7 Alarm.powerOn.begun s)
    Shaped s ∧ Shaped low ∧ s.prf.cure.samples = 3 ∧ (alarm 7 s).present = false ∧ (alarm 10 s).present = false ∧
    (alarm 7 low).present = true ∧ (alarm 10 low).present = true ∧ s.prf.cure.tSet[0]? = some 1600 ∧
    s.prf.cure.tTrip < s.prf.cure.tTrip + 1 ∧ 1599 < 1600 ∧ min 255 (2 + 1) = 3 ∧ 3 ≤ 2 + 1 ∧
    (false || decide (3000 < 3001)) = true ∧ (false || decide (3000 < 3000)) = false := by
  refine ⟨⟨rfl, rfl, rfl, rfl, rfl, rfl, rfl, by decide⟩, ⟨rfl, rfl, rfl, rfl, rfl, rfl, rfl, by decide⟩, rfl, rfl, rfl, rfl, rfl, rfl,
    by decide, by decide, by decide, by decide, by decide, by decide⟩

/-- Riders that neither pass 3,000 mm nor reach the diverter; one that passes; one that reaches it. -/
theorem witness_BeltCounts :
    let on : Nat → State := fun n => riding n tee stock
    ((on 29998).ctc.tunnel.map Rider.serial).Nodup ∧
    (∀ r ∈ (on 29998).ctc.tunnel, r.travel + 1 < 33000 ∧ r.travel + 1 ≠ 30000) ∧
    ((on 29999).ctc.tunnel.map Rider.serial).Nodup ∧ { serial := 1, travel := 29999 } ∈ (on 29999).ctc.tunnel ∧
    (∀ q ∈ (on 29999).ctc.tunnel, q.travel + 1 < 33000 ∧ (q.travel + 1 = 30000 → q = { serial := 1, travel := 29999 })) ∧
    garment 1 (on 29999) = some tee ∧ (on 32999).ctc.tunnel = { serial := 1, travel := 32999 } :: [] ∧
    garment 1 (on 32999) = some tee ∧ orderOf tee.order (on 32999) = some (0, web) ∧ freeBin stock = some 1 ∧
    Keyed (on 32999) ∧ (([{ serial := 2, travel := 19 }] : List Rider).map Rider.serial).Nodup ∧
    (let g : Garment := { tee with verification := some .verified, outcome := some .pass }
     let none_ : State := { stock with prf := { stock.prf with line := { stock.prf.line with bins := 0 } } }
     Shaped (riding 32999 g none_) ∧ garment 1 (riding 32999 g none_) = some g ∧ web.state ≠ .cancelling ∧
       unitTotal web ≠ 1 ∧ web.bin = none ∧ freeBin (riding 32999 g none_) = none) := by
  refine ⟨?_, ?_, ?_, ?_, ?_, rfl, rfl, rfl, rfl, ?_, ⟨rfl, rfl, rfl, rfl, rfl⟩, ?_,
    ⟨rfl, rfl, rfl, rfl, rfl, rfl, rfl, ?_⟩, rfl, ?_, ?_, rfl, ?_⟩ <;> decide

/-- Garment 1 reaches the diverter with garment 3 behind it, which comes to 2 mm. -/
theorem witness_BeltCounts_behind :
    let s : State := { riding 32999 tee stock with
      ctc := { stock.ctc with tunnel := [{ serial := 1, travel := 32999 }, { serial := 3, travel := 19 }] }
      car := { stock.car with garments := [(1, tee), (3, { tee with index := 1 })] } }
    (∀ q ∈ [({ serial := 3, travel := 19 } : Rider)], q.serial ≠ 1 ∧ q.travel + 1 < 33000 ∧ q.travel + 1 ≠ 30000) ∧
    garment 3 s = some { tee with index := 1 } ∧
    carried [{ serial := 3, travel := 19 }] 3 { tee with index := 1 } = { tee with index := 1, location := .belt 2 } ∧
    (match exec .beltEncoderCount s with
      | .next t => garment 3 t
      | _ => none) = some { tee with index := 1, location := .belt 2 } := by
  refine ⟨?_, rfl, ?_, ?_⟩ <;> decide +kernel

/-- Records of every class, and the re-feed of garment 1 in each state of the gate. -/
theorem witness_MarkRecords :
    let one : List Byte := [0x30, 0x30, 0x31, 0x2D, 0x30, 0x30, 0x30, 0x30, 0x31]
    let on : Nat → State := fun n =>
      { riding n tee stock with alm := { stock.alm with exit := { buffer := one, discarding := false } } }
    let back : State := { stock with
      alm := { stock.alm with entry := { buffer := one, discarding := false } }
      exs := { stock.exs with recure := [1] } }
    markOf one = some (1, 1) ∧ markOf [0x30] = none ∧ (on 30000).alm.exit = { buffer := one, discarding := false } ∧ one ≠ [] ∧
    1 = (on 30000).prf.line.lineId ∧ 2 ≠ (on 30000).prf.line.lineId ∧ (∀ r ∈ stock.ctc.tunnel, r.serial ≠ 1) ∧
    (on 30000).ctc.tunnel = { serial := 1, travel := 30000 } :: [] ∧
    (on 29999).ctc.tunnel = [] ++ { serial := 1, travel := 29999 } :: [] ∧ ((on 29999).ctc.tunnel.map Rider.serial).Nodup ∧
    29999 < 30000 ∧ garment 1 (on 29999) = some tee ∧ back.alm.entry = { buffer := one, discarding := false } ∧
    markOf one = some (back.prf.line.lineId, 1) ∧ 1 ∈ back.exs.recure ∧ 1 ∉ stock.exs.recure ∧
    back.ctc.refeedClaim = none ∧ back.ctc.gateHeld = false ∧ back.ctc.tunnel = [] ∧ garment 1 back = some tee ∧
    (let two : State := { on 30000 with
       ctc := { stock.ctc with tunnel := [{ serial := 3, travel := 31000 }, { serial := 1, travel := 30000 }] }
       car := { stock.car with garments := [(1, tee), (3, { tee with index := 1 })] } }
     two.ctc.tunnel = [{ serial := 3, travel := 31000 }] ++ { serial := 1, travel := 30000 } :: [] ∧
       (two.ctc.tunnel.map Rider.serial).Nodup ∧ garment 3 two = some { tee with index := 1 }) := by
  refine ⟨by decide, by decide, rfl, by decide, rfl, by decide, by decide, rfl, rfl, by decide, by decide, rfl, rfl, by decide,
    by decide, by decide, rfl, rfl, rfl, rfl, rfl, by decide, rfl⟩

/-- A garment on the recure list and one off it; bins 1 and 24 FREE, FILLING and COMPLETE; bins 0 and 25. -/
theorem witness_DropAndClear :
    let held : State := { stock with exs := { stock.exs with recure := [1] } }
    let bin : BinState → State := fun b =>
      let o : Order := { web with bin := some 24 }
      { orderAs o with exs := { stock.exs with bins := stock.exs.bins.set 23 { state := b, order := some 7, count := 1 } } }
    Reads held ∧ 1 ∈ held.exs.recure ∧ 2 ∉ held.exs.recure ∧ garment 1 held = some tee ∧ 24 < 25 ∧
    (1 ≤ 24 ∧ 24 ≤ 24) ∧ (binAt 1 stock).state = .free ∧ (binAt 24 (bin .filling)).state = .filling ∧
    Keyed (bin .filling) ∧ Shaped (bin .filling) ∧ (binAt 24 (bin .filling)).order = some 7 ∧
    orderOf 7 (bin .filling) = some (0, { web with bin := some 24 }) ∧ (binAt 24 (bin .complete)).state = .complete := by
  refine ⟨⟨rfl, rfl, rfl, .inl rfl⟩, by decide, by decide, rfl, by decide, ⟨by decide, by decide⟩, rfl, rfl, stock_keyed,
    ⟨rfl, rfl, rfl, rfl, rfl, rfl, rfl, by decide⟩, rfl, rfl, rfl⟩

end Sys2Proof.Tests
end

section
/-!
SUPPORT. The bytes of the image store under every operation: no operation but the writing of a band-plane (R33) and
power-on (R24) changes them, and both keep the canonical form.
-/

namespace Sys2Proof.Machine

/-! ### Operations that leave IMS as it is -/

@[simp] theorem refuse_state (st : Status) (s : State) : (refuse st s).state = s := rfl
@[simp] theorem accept_state (c : Bool) (s : State) : (accept c s).state = s := rfl
@[simp] theorem answer_state (content : List Byte) (s : State) : (answer content s).state = s := rfl

@[simp] theorem setStation_ims (st : Station) (r : StationRec) (s : State) : (setStation st r s).ims = s.ims :=
  (setStation_frame _ _ _).ims rfl
@[simp] theorem setContents_ims (st : Station) (c : Contents) (s : State) : (setContents st c s).ims = s.ims :=
  (setContents_frame _ _ _).ims rfl
@[simp] theorem setHold_ims (st : Station) (h : Hold) (s : State) : (setHold st h s).ims = s.ims :=
  (setHold_frame _ _ _).ims rfl
@[simp] theorem release_ims (st : Station) (s : State) : (release st s).ims = s.ims :=
  (release_frame _ _).ims rfl
@[simp] theorem withGarment_ims (serial : Nat) (f : Garment → Garment) (s : State) :
    (withGarment serial f s).ims = s.ims :=
  (withGarment_frame _ _ _).ims rfl
@[simp] theorem addDefect_ims (serial : Nat) (d : Defect) (s : State) : (addDefect serial d s).ims = s.ims :=
  (addDefect_frame _ _ _).ims rfl
@[simp] theorem setStage_ims (serial : Nat) (st : Stage) (s : State) : (setStage serial st s).ims = s.ims :=
  (setStage_frame _ _ _).ims rfl
@[simp] theorem onset_ims (i : Nat) (momentary : Bool) (s : State) : (onset i momentary s).ims = s.ims :=
  (onset_frame _ _ _).ims rfl
@[simp] theorem endDrill_ims (s : State) : (endDrill s).ims = s.ims :=
  (endDrill_frame _).ims rfl
@[simp] theorem withUnit_ims (seq : Nat) (f : UnitRec → UnitRec) (s : State) : (withUnit seq f s).ims = s.ims :=
  (withUnit_frame _ _ _).ims rfl
@[simp] theorem setBin_ims (n : Nat) (b : Bin) (s : State) : (setBin n b s).ims = s.ims :=
  (setBin_frame _ _ _).ims rfl
@[simp] theorem writeBelt_ims (r : Rider) (s : State) : (writeBelt r s).ims = s.ims :=
  (writeBelt_frame _ _).ims rfl
@[simp] theorem pretreatArrival_ims (serial : Nat) (s : State) : (pretreatArrival serial s).ims = s.ims :=
  (pretreatArrival_frame _ _).ims rfl
@[simp] theorem haltPretreat_ims (s : State) : (haltPretreat s).ims = s.ims :=
  (haltPretreat_frame _).ims rfl
@[simp] theorem resumePretreat_ims (s : State) : (resumePretreat s).ims = s.ims :=
  (resumePretreat_frame _).ims rfl
@[simp] theorem flashArrival_ims (serial : Nat) (s : State) : (flashArrival serial s).ims = s.ims :=
  (flashArrival_frame _ _).ims rfl
@[simp] theorem haltFlash_ims (s : State) : (haltFlash s).ims = s.ims :=
  (haltFlash_frame _).ims rfl
@[simp] theorem resumeFlash_ims (s : State) : (resumeFlash s).ims = s.ims :=
  (resumeFlash_frame _).ims rfl
@[simp] theorem takeTarget_ims (s : State) : (takeTarget s).ims = s.ims :=
  (takeTarget_frame _).ims rfl
@[simp] theorem dropStrokeState_ims (s : State) : (dropStrokeState s).ims = s.ims :=
  (dropStrokeState_frame _).ims rfl
@[simp] theorem clearHead_ims (s : State) : (clearHead s).ims = s.ims :=
  (clearHead_frame _).ims rfl
@[simp] theorem withStroke_ims (f : Stroke → Stroke) (s : State) : (withStroke f s).ims = s.ims :=
  (withStroke_frame _ _).ims rfl
@[simp] theorem losePlane_ims (serial ch b : Nat) (s : State) : (losePlane serial ch b s).ims = s.ims :=
  (losePlane_frame _ _ _ _).ims rfl
@[simp] theorem composeLine_ims (serial stroke n : Nat) (s : State) : (composeLine serial stroke n s).ims = s.ims :=
  (composeLine_frame _ _ _ _).ims rfl
@[simp] theorem restLine_ims (s : State) : (restLine s).ims = s.ims :=
  (restLine_frame _).ims rfl
@[simp] theorem decideDefects_ims (serial : Nat) (s : State) : (decideDefects serial s).ims = s.ims :=
  (decideDefects_frame _ _).ims rfl
@[simp] theorem moveShuttle_ims (motion : Shuttle) (s : State) : (moveShuttle motion s).ims = s.ims :=
  (moveShuttle_frame _ _).ims rfl
@[simp] theorem startHoming_ims (s : State) : (startHoming s).ims = s.ims :=
  (startHoming_frame _).ims rfl
@[simp] theorem stopShuttle_ims (s : State) : (stopShuttle s).ims = s.ims :=
  (stopShuttle_frame _).ims rfl
@[simp] theorem startStroke_ims (s : State) : (startStroke s).ims = s.ims :=
  (startStroke_frame _).ims rfl
@[simp] theorem writeRecord_ims (serial : Nat) (aborted : Bool) (s : State) :
    (writeRecord serial aborted s).ims = s.ims :=
  (writeRecord_frame _ _ _).ims rfl
@[simp] theorem encoderIdle_ims (s : State) : (encoderIdle s).ims = s.ims :=
  (encoderIdle_frame _).ims rfl
@[simp] theorem setEntryLamp_ims (l : EntryLamp) (s : State) : (setEntryLamp l s).ims = s.ims :=
  (setEntryLamp_frame _ _).ims rfl
@[simp] theorem unloadArrival_ims (serial : Nat) (s : State) : (unloadArrival serial s).ims = s.ims :=
  (unloadArrival_frame _ _).ims rfl
@[simp] theorem passExit_ims (serial : Nat) (s : State) : (passExit serial s).ims = s.ims :=
  (passExit_frame _ _).ims rfl
@[simp] theorem removeRider_ims (serial : Nat) (s : State) : (removeRider serial s).ims = s.ims :=
  (removeRider_frame _ _).ims rfl
@[simp] theorem correctRider_ims (serial : Nat) (s : State) : (correctRider serial s).ims = s.ims :=
  (correctRider_frame _ _).ims rfl
@[simp] theorem sortRecord_ims (serial : Nat) (f : Garment → Garment) (s : State) :
    (sortRecord serial f s).ims = s.ims :=
  (sortRecord_frame _ _ _).ims rfl
@[simp] theorem sortAtDiverter_ims (serial : Nat) (r : Route) (f : Garment → Garment) (s : State) :
    (sortAtDiverter serial r f s).ims = s.ims :=
  (sortAtDiverter_frame _ _ _ _).ims rfl
@[simp] theorem sendToRecure_ims (serial : Nat) (s : State) : (sendToRecure serial s).ims = s.ims :=
  (sendToRecure_frame _ _).ims rfl
@[simp] theorem countHold_ims (s : State) : (countHold s).ims = s.ims :=
  (countHold_frame _).ims rfl
@[simp] theorem verify_ims (serial : Nat) (s : State) : (verify serial s).ims = s.ims :=
  (verify_frame _ _).ims rfl
@[simp] theorem takeEntry_ims (chars : List Byte) (s : State) : (takeEntry chars s).ims = s.ims :=
  (takeEntry_frame _ _).ims rfl
@[simp] theorem setScan_ims (r : ScanResult) (s : State) : (setScan r s).ims = s.ims :=
  (setScan_frame _ _).ims rfl
@[simp] theorem setLine_ims (l : LineState) (s : State) : (setLine l s).ims = s.ims :=
  (setLine_frame _ _).ims rfl
@[simp] theorem pauseIndex_ims (s : State) : (pauseIndex s).ims = s.ims :=
  (pauseIndex_frame _).ims rfl
@[simp] theorem arriveAtLoad_ims (s : State) : (arriveAtLoad s).ims = s.ims :=
  (arriveAtLoad_frame _).ims rfl
@[simp] theorem refuseScan_ims (r : ScanResult) (s : State) : (refuseScan r s).ims = s.ims :=
  (refuseScan_frame _ _).ims rfl
@[simp] theorem setScanner_ims (l : ScanLine) (c : Scanner) (s : State) : (setScanner l c s).ims = s.ims :=
  (setScanner_frame _ _ _).ims rfl
@[simp] theorem discardRecord_ims (l : ScanLine) (s : State) : (discardRecord l s).ims = s.ims :=
  (discardRecord_frame _ _).ims rfl

/-! ### Folds -/

theorem foldl_store {β : Type} {f : State → β → State} (h : ∀ a b, (f a b).ims.store = a.ims.store) (l : List β)
    (s : State) : (l.foldl f s).ims.store = s.ims.store := by
  induction l generalizing s with
  | nil => rfl
  | cons b l ih => exact (ih _).trans (h s b)

/-- The same for a fold that carries the page-read results along. -/
theorem foldlPair_store {β γ : Type} {f : State × γ → β → State × γ}
    (h : ∀ a b, (f a b).1.ims.store = a.1.ims.store) (l : List β) (p : State × γ) :
    (l.foldl f p).1.ims.store = p.1.ims.store := by
  induction l generalizing p with
  | nil => rfl
  | cons b l ih => exact (ih _).trans (h p b)

/-! ### Images and their references -/

@[simp] theorem withImage_store (slot : Nat) (f : Image → Image) (s : State) :
    (withImage slot f s).ims.store = s.ims.store := by
  simp [withImage]

@[simp] theorem withImageId_store (id : Nat) (f : Image → Image) (s : State) :
    (withImageId id f s).ims.store = s.ims.store := by
  unfold withImageId
  split <;> simp

@[simp] theorem returnImageRef_store (serial : Nat) (s : State) :
    (returnImageRef serial s).ims.store = s.ims.store := by
  unfold returnImageRef
  repeat' split
  all_goals simp

@[simp] theorem handRef_store (id : Option Nat) (s : State) : (handRef id s).ims.store = s.ims.store := by
  unfold handRef
  split <;> simp

@[simp] theorem takeRef_store (id : Option Nat) (s : State) : (takeRef id s).ims.store = s.ims.store := by
  unfold takeRef
  split <;> simp

/-! ### ORD: units and orders -/

@[simp] theorem enqueue_store (seq : Nat) (u : UnitRec) (s : State) : (enqueue seq u s).ims.store = s.ims.store := by
  simp [enqueue]

@[simp] theorem dequeue_store (seq : Nat) (u : UnitRec) (s : State) : (dequeue seq u s).ims.store = s.ims.store := by
  simp [dequeue]

@[simp] theorem moveUnit_store (seq : Nat) (st : UnitState) (s : State) :
    (moveUnit seq st s).ims.store = s.ims.store := by
  unfold moveUnit
  repeat' split
  all_goals simp

@[simp] theorem dropUnit_store (seq : Nat) (s : State) : (dropUnit seq s).ims.store = s.ims.store := by
  unfold dropUnit
  repeat' split
  all_goals simp

@[simp] theorem retire_store (slot : Nat) (s : State) : (retire slot s).ims.store = s.ims.store := by
  unfold retire
  simp only [note_keeps, withOrder_keeps, State.withOrd_ims]
  exact foldl_store (fun t seq => by split; split; all_goals simp) _ s

@[simp] theorem retireCancelled_store (slot : Nat) (s : State) :
    (retireCancelled slot s).ims.store = s.ims.store := by
  unfold retireCancelled
  repeat' split
  all_goals simp

@[simp] theorem removeInLine_store (slot seq : Nat) (s : State) :
    (removeInLine slot seq s).ims.store = s.ims.store := by
  unfold removeInLine
  dsimp only
  repeat' split
  all_goals simp

@[simp] theorem completeOrder_store (slot : Nat) (s : State) : (completeOrder slot s).ims.store = s.ims.store := by
  unfold completeOrder
  repeat' split
  all_goals simp

@[simp] theorem reprintUnit_store (slot seq : Nat) (s : State) :
    (reprintUnit slot seq s).ims.store = s.ims.store := by
  unfold reprintUnit
  repeat' split
  all_goals simp

@[simp] theorem sortReport_store (r : Report) (g : Garment) (s : State) :
    (sortReport r g s).ims.store = s.ims.store := by
  unfold sortReport
  repeat' split
  all_goals simp

@[simp] theorem skipUnit_store (g : Garment) (s : State) : (skipUnit g s).ims.store = s.ims.store := by
  unfold skipUnit
  repeat' split
  all_goals simp

@[simp] theorem imageReadyReport_store (id : Nat) (s : State) : (imageReadyReport id s).ims.store = s.ims.store := by
  unfold imageReadyReport
  exact foldl_store (fun t p => by split <;> simp) _ s

@[simp] theorem imageDamagedReport_store (id : Nat) (s : State) :
    (imageDamagedReport id s).ims.store = s.ims.store := by
  unfold imageDamagedReport
  exact foldl_store (fun t p => by split <;> simp) _ s

@[simp] theorem addUnit_store (slot item index : Nat) (cls : UnitClass) (image : Nat) (s : State) :
    (addUnit slot item index cls image s).ims.store = s.ims.store := by
  unfold addUnit
  dsimp only
  repeat' split
  all_goals simp

@[simp] theorem addUnits_store (slot : Nat) (cls : UnitClass) (items : List Item) (s : State) :
    (addUnits slot cls items s).ims.store = s.ims.store := by
  unfold addUnits
  exact foldl_store (fun t q => by simp) _ s

/-! ### IMS: pages and the scan -/

@[simp] theorem setPlane_store (slot k : Nat) (p : Plane) (s : State) :
    (setPlane slot k p s).ims.store = s.ims.store := by
  simp [setPlane]

@[simp] theorem countCorrected_store (s : State) : (countCorrected s).ims.store = s.ims.store := by
  simp [countCorrected]

@[simp] theorem losePage_store (slot k n : Nat) (s : State) : (losePage slot k n s).ims.store = s.ims.store := by
  simp [losePage]

@[simp] theorem removeImage_store (slot : Nat) (s : State) : (removeImage slot s).ims.store = s.ims.store := by
  simp [removeImage]

@[simp] theorem completeScan_store (c : Scan) (s : State) : (completeScan c s).ims.store = s.ims.store := by
  unfold completeScan
  dsimp only
  repeat' split
  all_goals simp

@[simp] theorem runScan_store (fuel : Nat) (s : State) : (runScan fuel s).ims.store = s.ims.store := by
  induction fuel generalizing s with
  | zero => rfl
  | succ fuel ih =>
    unfold runScan
    repeat' split
    all_goals simp [ih]

@[simp] theorem advanceScan_store (s : State) : (advanceScan s).ims.store = s.ims.store := by
  simp [advanceScan]

@[simp] theorem scanRead_store (r : ReadResult) (s : State) : (scanRead r s).ims.store = s.ims.store := by
  unfold scanRead
  repeat' split
  all_goals simp

@[simp] theorem dropScan_store (slot : Nat) (s : State) : (dropScan slot s).ims.store = s.ims.store := by
  simp [dropScan]

/-! ### FDP and SHF: the print -/

@[simp] theorem setPrintActive_store (serial : Nat) (on : Bool) (s : State) :
    (setPrintActive serial on s).ims.store = s.ims.store := by
  unfold setPrintActive
  split <;> simp

@[simp] theorem startSpit_store (serial : Nat) (s : State) : (startSpit serial s).ims.store = s.ims.store := by
  simp [startSpit]

@[simp] theorem damageImage_store (slot : Nat) (s : State) : (damageImage slot s).ims.store = s.ims.store := by
  unfold damageImage
  repeat' split
  all_goals simp

@[simp] theorem readPlane_store (serial slot : Nat) (i : Image) (ch b : Nat) (p : State × List ReadResult) :
    (readPlane serial slot i ch b p).1.ims.store = p.1.ims.store := by
  unfold readPlane
  dsimp only
  repeat' split
  all_goals simp

@[simp] theorem readBands_store (serial stroke n : Nat) (p : State × List ReadResult) :
    (readBands serial stroke n p).1.ims.store = p.1.ims.store := by
  unfold readBands
  split
  · rfl
  · split
    · rfl
    · split
      · rfl
      · exact foldlPair_store (fun q ch => by split <;> simp) _ p

@[simp] theorem finishPrint_store (serial : Nat) (s : State) : (finishPrint serial s).ims.store = s.ims.store := by
  simp [finishPrint]

@[simp] theorem printArrival_store (serial : Nat) (s : State) : (printArrival serial s).ims.store = s.ims.store := by
  unfold printArrival
  dsimp only
  repeat' split
  all_goals simp

@[simp] theorem startPrint_store (s : State) : (startPrint s).ims.store = s.ims.store := by
  unfold startPrint
  dsimp only
  repeat' split
  all_goals simp

@[simp] theorem endStroke_store (s : State) : (endStroke s).ims.store = s.ims.store := by
  unfold endStroke
  dsimp only
  repeat' split
  all_goals simp

@[simp] theorem abortPrint_store (s : State) : (abortPrint s).ims.store = s.ims.store := by
  unfold abortPrint
  split <;> simp

@[simp] theorem lineEvent_store (n : Nat) (p : State × List ReadResult) :
    (lineEvent n p).1.ims.store = p.1.ims.store := by
  unfold lineEvent
  dsimp only
  repeat' split
  all_goals simp

@[simp] theorem advanceStroke_store (reads : List ReadResult) (s : State) :
    (advanceStroke reads s).ims.store = s.ims.store := by
  unfold advanceStroke
  dsimp only
  split
  all_goals
    simp only [endStroke_store, State.withShf_ims]
    refine (foldlPair_store (fun p count => ?_) _ _).trans (by simp)
    split
    · split <;> simp
    · rfl

@[simp] theorem encoderCount_store (forward : Bool) (reads : List ReadResult) (s : State) :
    (encoderCount forward reads s).ims.store = s.ims.store := by
  unfold encoderCount
  dsimp only
  repeat' split
  all_goals simp

@[simp] theorem scaleMarkReport_store (reads : List ReadResult) (s : State) :
    (scaleMarkReport reads s).ims.store = s.ims.store := by
  unfold scaleMarkReport
  repeat' split
  all_goals simp

@[simp] theorem arriveHome_store (s : State) : (arriveHome s).ims.store = s.ims.store := by
  unfold arriveHome
  dsimp only
  repeat' split
  all_goals simp

@[simp] theorem homeReport_store (s : State) : (homeReport s).ims.store = s.ims.store := by
  unfold homeReport
  dsimp only
  repeat' split
  all_goals simp

@[simp] theorem loseSignal_store (s : State) : (loseSignal s).ims.store = s.ims.store := by
  unfold loseSignal
  dsimp only
  repeat' split
  all_goals simp

@[simp] theorem haltPrint_store (s : State) : (haltPrint s).ims.store = s.ims.store := by
  unfold haltPrint
  dsimp only
  repeat' split
  all_goals simp

@[simp] theorem resumePrint_store (s : State) : (resumePrint s).ims.store = s.ims.store := by
  unfold resumePrint
  repeat' split
  all_goals simp

/-! ### EXS: sorting -/

@[simp] theorem reportSort_store (serial : Nat) (r : Report) (s : State) :
    (reportSort serial r s).ims.store = s.ims.store := by
  unfold reportSort
  split <;> simp

@[simp] theorem sortMissing_store (serial : Nat) (s : State) : (sortMissing serial s).ims.store = s.ims.store := by
  simp [sortMissing]

@[simp] theorem sortToBin_store (serial slot : Nat) (o : Order) (s : State) :
    (sortToBin serial slot o s).ims.store = s.ims.store := by
  unfold sortToBin
  repeat' split
  all_goals simp

@[simp] theorem routeGarment_store (serial slot : Nat) (o : Order) (g : Garment) (s : State) :
    (routeGarment serial slot o g s).ims.store = s.ims.store := by
  unfold routeGarment
  repeat' split
  all_goals simp

@[simp] theorem reachDiverter_store (serial : Nat) (s : State) :
    (reachDiverter serial s).ims.store = s.ims.store := by
  unfold reachDiverter
  dsimp only
  repeat' split
  all_goals simp

@[simp] theorem beltCount_store (s : State) : (beltCount s).ims.store = s.ims.store := by
  have belt := foldl_store (f := fun t (r : Rider) => if r.travel % 10 = 0 then writeBelt r t else t)
    fun t r => by split <;> simp
  have sorted := foldl_store (f := fun t (r : Rider) => reachDiverter r.serial t) fun t r => by simp
  have passed := foldl_store (f := fun t (r : Rider) => passExit r.serial t) fun t r => by simp
  simp [beltCount, belt, sorted, passed]

@[simp] theorem lateRecord_store (serial : Nat) (s : State) : (lateRecord serial s).ims.store = s.ims.store := by
  have missing := foldl_store (f := fun t (r : Rider) => sortMissing r.serial t) fun t r => by simp
  simp [lateRecord, missing]

@[simp] theorem takeExit_store (chars : List Byte) (s : State) : (takeExit chars s).ims.store = s.ims.store := by
  unfold takeExit
  split <;> simp

@[simp] theorem dropRecure_store (serial : Nat) (s : State) : (dropRecure serial s).ims.store = s.ims.store := by
  unfold dropRecure
  split <;> simp

@[simp] theorem clearBin_store (n : Nat) (s : State) : (clearBin n s).ims.store = s.ims.store := by
  unfold clearBin
  dsimp only
  repeat' split
  all_goals simp

/-! ### CAR: the line, the index and the LOAD station -/

@[simp] theorem enterHalted_store (s : State) : (enterHalted s).ims.store = s.ims.store := by
  unfold enterHalted
  split <;> simp

@[simp] theorem resumeLine_store (s : State) : (resumeLine s).ims.store = s.ims.store := by
  simp [resumeLine]

@[simp] theorem haltOnset_store (i : Nat) (s : State) : (haltOnset i s).ims.store = s.ims.store := by
  simp [haltOnset]

@[simp] theorem enterRunning_store (s : State) : (enterRunning s).ims.store = s.ims.store := by
  unfold enterRunning
  dsimp only
  repeat' split
  all_goals simp

@[simp] theorem enterDraining_store (s : State) : (enterDraining s).ims.store = s.ims.store := by
  unfold enterDraining
  dsimp only
  repeat' split
  all_goals simp

@[simp] theorem advance_store (s : State) : (advance s).ims.store = s.ims.store := by
  simp [advance]

theorem arriveAt_store (st : Station) (f : Nat → State → State) (h : ∀ n s, (f n s).ims.store = s.ims.store)
    (s : State) : (arriveAt st f s).ims.store = s.ims.store := by
  unfold arriveAt
  split <;> simp [h]

@[simp] theorem arrivals_store (s : State) : (arrivals s).ims.store = s.ims.store := by
  have h1 := arriveAt_store .pretreat pretreatArrival (by simp)
  have h2 := arriveAt_store .flash flashArrival (by simp)
  have h3 := arriveAt_store .print printArrival (by simp)
  have h4 := arriveAt_store .unload unloadArrival (by simp)
  simp [arrivals, h1, h2, h3, h4]

@[simp] theorem indexSensed_store (s : State) : (indexSensed s).ims.store = s.ims.store := by
  unfold indexSensed
  split <;> simp

@[simp] theorem indexExpired_store (s : State) : (indexExpired s).ims.store = s.ims.store := by
  unfold indexExpired
  split <;> simp

@[simp] theorem bindUnit_store (seq : Nat) (u : UnitRec) (o : Order) (it : Item) (s : State) :
    (bindUnit seq u o it s).ims.store = s.ims.store := by
  simp [bindUnit]

@[simp] theorem takeLoad_store (chars : List Byte) (s : State) : (takeLoad chars s).ims.store = s.ims.store := by
  unfold takeLoad
  dsimp only
  repeat' split
  all_goals simp

@[simp] theorem pressSkip_store (s : State) : (pressSkip s).ims.store = s.ims.store := by
  unfold pressSkip
  dsimp only
  repeat' split
  all_goals simp

/-! ### ALM: inputs and scanner lines -/

@[simp] theorem readEstop_store (active : Bool) (s : State) : (readEstop active s).ims.store = s.ims.store := by
  unfold readEstop
  dsimp only
  repeat' split
  all_goals simp

@[simp] theorem firstReading_store (s : State) : (firstReading s).ims.store = s.ims.store := by
  simp [firstReading]

@[simp] theorem handRecord_store (l : ScanLine) (chars : List Byte) (s : State) :
    (handRecord l chars s).ims.store = s.ims.store := by
  unfold handRecord
  split <;> simp

@[simp] theorem takeChar_store (l : ScanLine) (c : Byte) (s : State) : (takeChar l c s).ims.store = s.ims.store := by
  unfold takeChar
  dsimp only
  repeat' split
  all_goals simp

/-! ### LNK -/

@[simp] theorem settle_store (s : State) : (settle s).ims.store = s.ims.store := by
  simp [settle]

@[simp] theorem sendingReport_store (k : Sending) (s : State) : (sendingReport k s).ims.store = s.ims.store := by
  unfold sendingReport
  repeat' split
  all_goals simp

@[simp] theorem noticeRead_store (s : State) : (noticeRead s).ims.store = s.ims.store := by
  unfold noticeRead
  split <;> simp

/-! ### The requests -/

@[simp] theorem clearAll_store (s : State) : (clearAll s).ims.store = s.ims.store := by
  simp [clearAll, Ims.cleared]

@[simp] theorem decideReset_store (s : State) : (decideReset s).state.ims.store = s.ims.store := by
  unfold decideReset
  repeat' split
  all_goals simp

@[simp] theorem storeSettings_store (l : LineSettings) (s : State) : (storeSettings l s).ims.store = s.ims.store := by
  unfold storeSettings
  dsimp only
  repeat' split
  all_goals simp

@[simp] theorem decideConfig_store (key : Bool) (es : List SettingEntry) (s : State) :
    (decideConfig key es s).state.ims.store = s.ims.store := by
  unfold decideConfig
  dsimp only
  repeat' split
  all_goals simp

@[simp] theorem decideOpen_store (id w h x0 y0 channels rush : Nat) (s : State) :
    (decideOpen id w h x0 y0 channels rush s).state.ims.store = s.ims.store := by
  simp only [decideOpen]
  repeat' split
  all_goals simp

@[simp] theorem decideClose_store (s : State) : (decideClose s).state.ims.store = s.ims.store := by
  unfold decideClose
  repeat' split
  all_goals simp

@[simp] theorem decideAbort_store (s : State) : (decideAbort s).state.ims.store = s.ims.store := by
  unfold decideAbort
  repeat' split
  all_goals simp

@[simp] theorem markImageGone_store (slot id : Nat) (s : State) :
    (markImageGone slot id s).ims.store = s.ims.store := by
  simp [markImageGone]

@[simp] theorem decideDelete_store (id : Nat) (s : State) : (decideDelete id s).state.ims.store = s.ims.store := by
  unfold decideDelete
  repeat' split
  all_goals simp

@[simp] theorem enterOrder_store (slot id : Nat) (p : Priority) (items : List Item) (s : State) :
    (enterOrder slot id p items s).ims.store = s.ims.store := by
  simp [enterOrder]

@[simp] theorem decideAdd_store (id priority : Nat) (items : List ItemBody) (s : State) :
    (decideAdd id priority items s).state.ims.store = s.ims.store := by
  simp only [decideAdd]
  repeat' split
  all_goals simp

@[simp] theorem removeWaiting_store (slot : Nat) (s : State) : (removeWaiting slot s).ims.store = s.ims.store := by
  unfold removeWaiting
  exact foldl_store (fun t seq => by split; split; all_goals simp) _ s

@[simp] theorem decideCancel_store (id : Nat) (s : State) : (decideCancel id s).state.ims.store = s.ims.store := by
  unfold decideCancel
  repeat' split
  all_goals simp

@[simp] theorem decideRecureDrop_store (serial : Nat) (s : State) :
    (decideRecureDrop serial s).state.ims.store = s.ims.store := by
  unfold decideRecureDrop
  repeat' split
  all_goals simp

@[simp] theorem decideBinClear_store (n force : Nat) (s : State) :
    (decideBinClear n force s).state.ims.store = s.ims.store := by
  unfold decideBinClear
  repeat' split
  all_goals simp

@[simp] theorem decideFilled_store (s : State) : (decideFilled s).state.ims.store = s.ims.store := by
  simp [decideFilled]

@[simp] theorem decideStart_store (s : State) : (decideStart s).state.ims.store = s.ims.store := by
  unfold decideStart
  repeat' split
  all_goals simp

@[simp] theorem decideStop_store (s : State) : (decideStop s).state.ims.store = s.ims.store := by
  unfold decideStop
  repeat' split
  all_goals simp

@[simp] theorem decideHalt_store (s : State) : (decideHalt s).state.ims.store = s.ims.store := by
  simp [decideHalt]

@[simp] theorem decideAck_store (kind number count : Nat) (s : State) :
    (decideAck kind number count s).state.ims.store = s.ims.store := by
  unfold decideAck
  repeat' split
  all_goals simp

@[simp] theorem stallBelt_store (s : State) : (stallBelt s).ims.store = s.ims.store := by
  unfold stallBelt
  split <;> simp

/-! ### Frames and commands -/

theorem take_store (kind tag : Byte) (d : State → Answer) (s : State) :
    (take kind tag d s).ims.store = (d s).state.ims.store := by
  simp [take]

/-- A frame that is taken leaves the bytes of the store, unless it is a BAND. -/
theorem serve_store (c : Instr) (s : State) (hc : ∀ tag ch b enc data, c ≠ .band tag ch b enc data) :
    (serve c s).ims.store = s.ims.store := by
  cases c
  case band => exact absurd rfl (hc _ _ _ _ _)
  case frameRejected =>
    simp only [serve, takeRejected]
    split <;> simp [take_store]
  all_goals simp [serve, take_store, takeIdent, takeStatusGet, takeReset, takeConfigSet, takeConfigGet,
    takeProfileSet, takeProfileGet, takeCureSet, takeSpitSet, takeNozzleSet, takeNozzleGet, takeImageOpen,
    takeImageClose, takeImageAbort, takeImageDelete, takeImageGet, takeOrderAdd, takeOrderRush, takeOrderCancel,
    takeOrderGet, takeGarmentGet, takeRecureDrop, takeBinClear, takeFluidFilled, takeLineStart, takeLineStop,
    takeLineHalt, takeAlarmGet, takeAlarmAck, takeDrillStep]

/-- A BAND writes bytes in the canonical form or leaves the store (R33). -/
theorem decideBand_canonical (ch b enc : Nat) (data : List Byte) {s : State} (h : StoreCanonical s) :
    StoreCanonical (decideBand ch b enc data s).state := by
  unfold decideBand
  repeat' split
  all_goals try exact h
  exact storeWrite_wf _ _ h

theorem serve_canonical (c : Instr) (s : State) (h : StoreCanonical s) : StoreCanonical (serve c s) := by
  by_cases hc : ∃ tag ch b enc data, c = .band tag ch b enc data
  · obtain ⟨tag, ch, b, enc, data, rfl⟩ := hc
    unfold StoreCanonical
    rw [show serve (.band tag ch b enc data) s = take 0x21 tag (decideBand ch b enc data) s from rfl, take_store]
    exact decideBand_canonical ch b enc data h
  · unfold StoreCanonical
    rw [serve_store c s fun tag ch b enc data e => hc ⟨tag, ch, b, enc, data, e⟩]
    exact h

theorem readPipe_canonical (s : State) (h : StoreCanonical s) : StoreCanonical (readPipe s) :=
  readPipe_keeps (fun _ _ _ h => h) serve_canonical s h

theorem arrive_canonical (k : Chunk) (s : State) (h : StoreCanonical s) : StoreCanonical (arrive k s) :=
  readPipe_canonical _ h

theorem deliver_canonical (c : Instr) (s : State) (h : StoreCanonical s) : StoreCanonical (deliver c s) := by
  unfold deliver
  split
  · exact serve_canonical c s h
  · exact arrive_canonical _ s h

theorem replyRead_canonical (s : State) (h : StoreCanonical s) : StoreCanonical (replyRead s) := by
  unfold replyRead
  split
  · exact readPipe_canonical _ (by simpa [StoreCanonical] using h)
  · exact h

theorem configure_canonical (s : State) (h : StoreCanonical s) : StoreCanonical (configure s) :=
  readPipe_canonical _ (by simpa [StoreCanonical] using h)

/-- How a command reaches the bytes of the store: POWER_ON empties it, a frame or its bytes may be read, and every other
command leaves it (R24, R33). -/
theorem exec_store (c : Instr) (s : State) : ∃ t, exec c s = .next t ∧
    (t.ims.store = s.ims.store ∨ t.ims.store = [] ∨ t = deliver c s ∨ (∃ k, t = arrive k s) ∨ t = replyRead s ∨
      t = configure s) := by
  cases c
  case powerOn => exact ⟨_, rfl, .inr (.inl (firstReading_store _))⟩
  case frameRejected =>
    refine ⟨_, rfl, ?_⟩
    split
    · exact .inr (.inr (.inl rfl))
    · exact .inr (.inr (.inr (.inl ⟨_, rfl⟩)))
  case implausibleHeader => exact ⟨_, rfl, .inr (.inr (.inr (.inl ⟨_, rfl⟩)))⟩
  case replyRead => exact ⟨_, rfl, .inr (.inr (.inr (.inr (.inl rfl))))⟩
  case usbConfigured => exact ⟨_, rfl, .inr (.inr (.inr (.inr (.inr rfl))))⟩
  case ident | statusGet | reset | configSet | configGet | profileSet | profileGet | cureSet | spitSet | nozzleSet
      | nozzleGet | imageOpen | band | imageClose | imageAbort | imageDelete | imageGet | orderAdd | orderRush
      | orderCancel | orderGet | garmentGet | recureDrop | binClear | fluidFilled | lineStart | lineStop | lineHalt
      | alarmGet | alarmAck | drillStep =>
    exact ⟨_, rfl, .inr (.inr (.inl rfl))⟩
  all_goals refine ⟨_, rfl, .inl ?_⟩
  all_goals simp

theorem exec_canonical (c : Instr) (s t : State) (h : StoreCanonical s) (e : exec c s = .next t) :
    StoreCanonical t := by
  obtain ⟨u, hu, how⟩ := exec_store c s
  obtain rfl : u = t := by rw [hu] at e; exact Host.Outcome.next.inj e
  rcases how with k | k | rfl | ⟨q, rfl⟩ | rfl | rfl
  · unfold StoreCanonical; rwa [k]
  · unfold StoreCanonical; rw [k]; rfl
  · exact deliver_canonical c s h
  · exact arrive_canonical q s h
  · exact replyRead_canonical s h
  · exact configure_canonical s h

/-- Settles O7: a command writes the store through BAND alone, by `storeWrite`, and POWER_ON empties it. -/
theorem storeStaysCanonical : Obligations.StoreStaysCanonical := by
  intro s t h e
  unfold step at e
  split at e
  next => cases e; exact h
  next c rest _ => exact exec_canonical c { s with pending := rest } t h e

end Sys2Proof.Machine
end

section
/-!
SUPPORT and O29. The run-length code of R35: what `rle` makes of one run, of several, and of a run that is cut short.
-/

namespace Sys2Proof.Machine

theorem spell_length_pos (r : Run) : 0 < r.spell.length := by
  cases r <;> simp [Run.spell]

theorem yields_length_pos {r : Run} (h : r.ok) : 0 < r.yields.length := by
  cases r with
  | literal bs => exact h.1
  | repeated n b =>
    obtain ⟨h2, -⟩ := h
    simp only [Run.yields, List.length_replicate]
    omega

/-- Bytes left over where none is wanted yield nothing. -/
theorem rle_zero_of_ne_nil (fuel : Nat) {data : List Byte} (h : data ≠ []) : rle fuel 0 data = none := by
  cases data with
  | nil => exact absurd rfl h
  | cons b rest => simp [rle]

/-- No bytes yield the empty plane alone. -/
theorem rle_nil (fuel need : Nat) : rle fuel need [] = if need = 0 then some [] else none := by
  cases need <;> simp [rle]

theorem literal_head {bs : List Byte} (h : (Run.literal bs).ok) :
    (BitVec.ofNat 8 (bs.length - 1)).toNat = bs.length - 1 := by
  obtain ⟨h1, h2⟩ := h
  rw [BitVec.toNat_ofNat, Nat.mod_eq_of_lt (by omega)]

theorem repeated_head {n : Nat} {b : Byte} (h : (Run.repeated n b).ok) :
    (BitVec.ofNat 8 (n + 126)).toNat = n + 126 := by
  obtain ⟨h1, h2⟩ := h
  rw [BitVec.toNat_ofNat, Nat.mod_eq_of_lt (by omega)]

/-- One run yields its bytes where they do not go past the plane, and the rest goes on behind them (R35). -/
theorem rle_run {r : Run} (h : r.ok) (fuel need : Nat) (rest : List Byte) :
    rle (fuel + 1) (need + 1) (r.spell ++ rest) =
      if r.yields.length ≤ need + 1 then
        (rle fuel (need + 1 - r.yields.length) rest).map (r.yields ++ ·)
      else none := by
  cases r with
  | literal bs =>
    have head := literal_head h
    obtain ⟨h1, h2⟩ := h
    have count : bs.length - 1 + 1 = bs.length := by omega
    by_cases fits : bs.length ≤ need + 1 <;>
      simp [Run.spell, Run.yields, rle, head, count, show bs.length - 1 < 128 by omega, fits]
  | repeated n b =>
    have head := repeated_head h
    obtain ⟨h1, h2⟩ := h
    simp [Run.spell, Run.yields, rle, head, show ¬ n + 126 < 128 by omega]

/-- A run cut short yields nothing (R35). -/
theorem rle_cut {r : Run} (h : r.ok) {k : Nat} (h0 : 0 < k) (hk : k < r.spell.length) (fuel need : Nat) :
    rle fuel need (r.spell.take k) = none := by
  obtain ⟨j, rfl⟩ : ∃ j, k = j + 1 := ⟨k - 1, by omega⟩
  cases r with
  | literal bs =>
    have head := literal_head h
    obtain ⟨h1, h2⟩ := h
    have short : j < bs.length := by simpa [Run.spell] using hk
    have count : bs.length - 1 + 1 = bs.length := by omega
    cases need <;> cases fuel <;>
      simp [Run.spell, rle, head, count, show bs.length - 1 < 128 by omega, short]
  | repeated n b =>
    have head := repeated_head h
    obtain ⟨h1, h2⟩ := h
    have last : j = 0 := by simpa [Run.spell] using hk
    subst last
    cases need <;> cases fuel <;> simp [Run.spell, rle, head, show ¬ n + 126 < 128 by omega]

/-- Several runs yield their bytes in order, where they do not go past the plane. -/
theorem rle_runs {runs : List Run} (h : ∀ r ∈ runs, r.ok) {fuel : Nat} (hf : runs.length ≤ fuel) (need : Nat)
    (rest : List Byte) :
    rle fuel need (runs.flatMap Run.spell ++ rest) =
      if (runs.flatMap Run.yields).length ≤ need then
        (rle (fuel - runs.length) (need - (runs.flatMap Run.yields).length) rest).map (runs.flatMap Run.yields ++ ·)
      else none := by
  induction runs generalizing fuel need with
  | nil => simp
  | cons r runs ih =>
    have hr : r.ok := h r (by simp)
    have yields := yields_length_pos hr
    simp only [List.flatMap_cons, List.append_assoc, List.length_append, List.length_cons] at hf ⊢
    cases need with
    | zero =>
      rw [rle_zero_of_ne_nil _ (List.append_ne_nil_of_left_ne_nil (List.ne_nil_of_length_pos (spell_length_pos r)) _),
        if_neg (by omega)]
    | succ need =>
      obtain ⟨fuel, rfl⟩ : ∃ f, fuel = f + 1 := ⟨fuel - 1, by omega⟩
      rw [rle_run hr, ih (fun q hq => h q (List.mem_cons_of_mem _ hq)) (by omega)]
      by_cases hfits : r.yields.length + (runs.flatMap Run.yields).length ≤ need + 1
      · rw [if_pos (by omega), if_pos (by omega), if_pos hfits, Option.map_map, Nat.sub_sub]
        simp [Function.comp_def]
      · rw [if_neg hfits]
        split
        · rw [if_neg (by omega)]; rfl
        · rfl

/-- A run takes a byte of data at the least, so that the data's length bounds the number of runs. -/
theorem runs_length_le (runs : List Run) : runs.length ≤ (runs.flatMap Run.spell).length := by
  induction runs with
  | nil => simp
  | cons r runs ih =>
    have := spell_length_pos r
    simp only [List.flatMap_cons, List.length_append, List.length_cons]
    omega

/-- Settles O29: by the runs, through `rle_runs`. -/
theorem bandDataDecodes : Obligations.BandDataDecodes := by
  refine ⟨fun size data => rfl, fun size runs h => ?_, fun size runs r k h hr h0 hk => ?_⟩
  · have decoded := rle_runs h (runs_length_le runs) size []
    rw [List.append_nil] at decoded
    show rle _ size _ = _
    rw [decoded, rle_nil]
    by_cases e : (runs.flatMap Run.yields).length = size
    · simp [e]
    · rw [if_neg e]
      split
      · rw [if_neg (by omega)]; rfl
      · rfl
  · show rle _ size _ = _
    have enough : runs.length ≤ (runs.flatMap Run.spell ++ r.spell.take k).length := by
      rw [List.length_append]
      exact (runs_length_le runs).trans (Nat.le_add_right _ _)
    rw [rle_runs h enough, rle_cut hr h0 hk]
    simp

end Sys2Proof.Machine
end

section
/-!
SUPPORT and O30. What the reply to a request is by its owner's answer, and what IMS decides on BAND (R33).
-/

namespace Sys2Proof.Machine

/-! ### The reply by the answer -/

/-- A refused request, with the state that the owner refuses it in. -/
theorem take_refused {kind tag : Byte} {d : State → Answer} {st : Status} {s u : State} (h : Reads s)
    (hd : d s = refuse st u) (hu : u.lnk.configured = s.lnk.configured) :
    take kind tag d s = replied kind tag st [] u := by
  rw [take_replied h (by rw [hd]; exact hu) (by rw [hd]; exact .inl rfl), hd]
  rfl

/-- An accepted request, with the state after it. -/
theorem take_accepted {kind tag : Byte} {d : State → Answer} {c : Bool} {s u : State} (h : Reads s)
    (hd : d s = accept c u) (hu : u.lnk.configured = s.lnk.configured) :
    take kind tag d s = replied kind tag (acceptStatus c) [] u := by
  rw [take_replied h (by rw [hd]; exact hu) (by rw [hd]; exact .inl rfl), hd]
  rfl

/-! ### BAND -/

theorem bandsOf_eq (h : Nat) : bandsOf h = (h + 47) / 48 := rfl

theorem planeIndex_some {set : BitVec 5} {h ch b : Nat} (hc : set.getLsbD ch = true) (hb : b < (h + 47) / 48) :
    planeIndex set h ch b = some ((channelsIn set).idxOf ch * ((h + 47) / 48) + b) := by
  rw [planeIndex, bandsOf_eq, if_pos ⟨hc, hb⟩]

theorem planeIndex_none {set : BitVec 5} {h ch b : Nat} (hn : set.getLsbD ch = false ∨ (h + 47) / 48 ≤ b) :
    planeIndex set h ch b = none := by
  rw [planeIndex, bandsOf_eq, if_neg]
  rintro ⟨hc, hb⟩
  rcases hn with hn | hn
  · rw [hc] at hn; cases hn
  · omega

theorem exec_band {s : State} (h : Reads s) (tag : Byte) (ch b enc : Nat) (data : List Byte) :
    exec (.band tag ch b enc data) s = .next (take 0x21 tag (decideBand ch b enc data) s) :=
  congrArg _ (deliver_reads h _)

theorem decideBand_notOpen {s : State} (h : openImage s = none) (ch b enc : Nat) (data : List Byte) :
    decideBand ch b enc data s = refuse .notOpen s := by
  simp [decideBand, h]

theorem decideBand_range {s : State} {slot : Nat} {i : Image} (h : openImage s = some (slot, i)) {ch b enc : Nat}
    (hr : i.channels.getLsbD ch = false ∨ (i.h + 47) / 48 ≤ b ∨ 2 ≤ enc) (data : List Byte) :
    decideBand ch b enc data s = refuse .range s := by
  have index : (if enc < 2 then planeIndex i.channels i.h ch b else none) = none := by
    split
    next he => exact planeIndex_none (hr.imp_right fun k => k.resolve_right (by omega))
    next => rfl
  simp only [decideBand, h, index]

/-- The entry is there, and the data is judged (R33). -/
theorem decideBand_data {s : State} {slot : Nat} {i : Image} (h : openImage s = some (slot, i)) {ch b enc : Nat}
    (hc : i.channels.getLsbD ch = true) (hb : b < (i.h + 47) / 48) (he : enc < 2) (data : List Byte) :
    let k := (channelsIn i.channels).idxOf ch * ((i.h + 47) / 48) + b
    let plane := planeData enc (min 48 (i.h - 48 * b) * ((i.w + 3) / 4)) data
    (plane = none → decideBand ch b enc data s = refuse .badData s) ∧
    ∀ n sent bytes, i.planes[k]? = some (.page n sent) → plane = some bytes →
      decideBand ch b enc data s = accept false (writePlane slot k n bytes s) := by
  have size : planeSize i.w i.h b = min 48 (i.h - 48 * b) * ((i.w + 3) / 4) := rfl
  constructor
  · intro bad
    simp [decideBand, h, he, planeIndex_some hc hb, size, bad]
  · intro n sent bytes page good
    simp [decideBand, h, he, planeIndex_some hc hb, size, good, page]

/-- A byte of the store after a plane has been written to page `n` (R24, R33). -/
theorem storeRead_page (n : Nat) (bytes : List Byte) (m : List Host.Cell) (a : Nat) :
    storeRead (storeWrite (n * Config.pageBytes) bytes m) a =
      if 65536 * n ≤ a ∧ a < 65536 * n + bytes.length then (bytes[a - 65536 * n]?).getD 0 else storeRead m a := by
  rw [show n * Config.pageBytes = 65536 * n from Nat.mul_comm _ _]
  exact storeRead_storeWrite _ _ _ _

/-- Settles O30: the checks in their order, and the bytes that an accepted BAND writes. -/
theorem bandWritesPage : Obligations.BandWritesPage := by
  intro tag ch b enc data s hs
  rw [exec_band hs]
  refine ⟨fun h => ?_, fun slot i h hr => ?_, fun slot i k h hc hb he hk => ?_⟩
  · rw [take_refused hs (decideBand_notOpen h ch b enc data) rfl]
  · rw [take_refused hs (decideBand_range h hr data) rfl]
  · subst hk
    obtain ⟨bad, good⟩ := decideBand_data h hc hb he data
    refine ⟨fun hp => ?_, fun n sent bytes hn hp => ?_⟩
    · rw [take_refused hs (bad hp) rfl]
    · refine ⟨storeWrite (n * Config.pageBytes) bytes s.ims.store, ?_, storeRead_page n bytes s.ims.store⟩
      rw [take_accepted hs (good n sent bytes hn hp) rfl]
      rfl

end Sys2Proof.Machine
end

section
/-!
SUPPORT and O28. The supply of pages (R25, R31) and what IMS decides on IMAGE_OPEN (R29 to R32).
-/

namespace Sys2Proof.Machine

/-! ### The supply -/

theorem mem_pagesOf {n : Nat} {planes : List Plane} : n ∈ pagesOf planes ↔ ∃ sent, Plane.page n sent ∈ planes := by
  simp only [pagesOf, List.mem_filterMap]
  constructor
  · rintro ⟨p, hp, e⟩
    cases p with
    | page m sent => obtain rfl : m = n := by simpa using e
                     exact ⟨sent, hp⟩
    | blank => simp at e
    | lost => simp at e
  · rintro ⟨sent, hp⟩
    exact ⟨_, hp, rfl⟩

theorem mem_ownedPages {n : Nat} {s : State} :
    n ∈ ownedPages s ↔ ∃ p ∈ s.ims.images, p.2.removed = false ∧ ∃ sent, Plane.page n sent ∈ p.2.planes := by
  simp only [ownedPages, List.mem_flatMap]
  refine exists_congr fun p => and_congr_right fun _ => ?_
  cases p.2.removed <;> simp [mem_pagesOf]

theorem mem_freePages {lo hi n : Nat} {s : State} :
    n ∈ freePages lo hi s ↔ lo ≤ n ∧ n < hi ∧ n ∉ ownedPages s ∧ n ∉ s.ims.retired := by
  have range : n ∈ (List.range (hi - lo)).map (lo + ·) ↔ lo ≤ n ∧ n < hi := by
    rw [List.mem_map]
    constructor
    · rintro ⟨k, hk, rfl⟩
      have := List.mem_range.mp hk
      omega
    · rintro ⟨h1, h2⟩
      exact ⟨n - lo, List.mem_range.mpr (by omega), by omega⟩
  simp only [freePages, List.mem_filter, range]
  simp [and_assoc]

theorem freePages_sorted (lo hi : Nat) (s : State) : (freePages lo hi s).Pairwise (· < ·) := by
  refine List.Pairwise.filter _ (List.pairwise_map.mpr ?_)
  exact List.pairwise_lt_range.imp fun h => by omega

theorem reserveFrom_eq (r : Reserve) : reserveFrom r = 8192 - r.pages := rfl

theorem reserveFrom_le (r : Reserve) : reserveFrom r ≤ 8192 := Nat.sub_le _ _

theorem pageSupply_sorted (rush : Bool) (s : State) : (pageSupply rush s).Pairwise (· < ·) := by
  cases rush with
  | false => exact freePages_sorted _ _ s
  | true =>
    refine List.pairwise_append.mpr ⟨freePages_sorted _ _ s, freePages_sorted _ _ s, fun a ha b hb => ?_⟩
    obtain ⟨-, below, -⟩ := mem_freePages.mp ha
    obtain ⟨above, -⟩ := mem_freePages.mp hb
    exact below.trans_le above

/-- The supply holds the free pages below its bound: every page for a RUSH image, the ordinary ones for another. -/
theorem mem_pageSupply {rush : Bool} {s : State} {n : Nat} :
    n ∈ pageSupply rush s ↔
      n < (if rush then 8192 else reserveFrom s.prf.line.reserve) ∧ n ∉ ownedPages s ∧ n ∉ s.ims.retired := by
  cases rush with
  | false => simp [pageSupply, freeOrdinary, mem_freePages]
  | true =>
    have fits := reserveFrom_le s.prf.line.reserve
    have pages : Config.storePages = 8192 := rfl
    simp only [pageSupply, freeOrdinary, freeReserve, if_true, List.mem_append, mem_freePages, pages]
    constructor
    · rintro (⟨-, h, hf⟩ | ⟨-, h, hf⟩)
      · exact ⟨h.trans_le fits, hf⟩
      · exact ⟨h, hf⟩
    · rintro ⟨h, hf⟩
      rcases Nat.lt_or_ge n (reserveFrom s.prf.line.reserve) with k | k
      · exact .inl ⟨Nat.zero_le _, k, hf⟩
      · exact .inr ⟨k, h, hf⟩

/-! ### The operands -/

theorem channelSetOf_some {n : Nat} (h1 : 1 ≤ n) (h2 : n < 32) : channelSetOf n = some (BitVec.ofNat 5 n) :=
  if_neg (by omega)

theorem channelSetOf_none {n : Nat} (h : n = 0 ∨ 32 ≤ n) : channelSetOf n = none := if_pos h

theorem flagOf_some {n : Nat} (h : n < 2) : flagOf n = some (n == 1) := by
  interval_cases n <;> rfl

theorem flagOf_none {n : Nat} (h : 2 ≤ n) : flagOf n = none := by
  match n, h with
  | n + 2, _ => rfl

theorem freeKey_eq_none {α : Type} {n : Nat} {t : List (Nat × α)} :
    freeKey n t = none ↔ ∀ k < n, (tabGet k t).isSome = true := by
  simp [freeKey, Option.isSome_iff_ne_none]

/-- A bound that cuts a number changes it exactly where the number lies above. -/
theorem min_ne_iff (a b : Nat) : (min a b != a) = decide (b < a) := by
  rw [Bool.eq_iff_iff]
  simp only [bne_iff_ne, ne_eq, decide_eq_true_eq]
  omega

/-! ### IMAGE_OPEN -/

theorem exec_imageOpen {s : State} (hs : Reads s) (tag : Byte) (id w h x y channels rush : Nat) :
    exec (.imageOpen tag id w h x y channels rush) s =
      .next (take 0x20 tag (decideOpen id w h x y channels rush) s) :=
  congrArg _ (deliver_reads hs _)

/-- The record of an image just opened, on the first pages of a supply (R30 to R32). -/
def openedImage (id w h x y channels : Nat) (rush : Bool) (supply : List Nat) : Image :=
  { id := id, w := w, h := h, x0 := min x (4800 - w), y0 := min y (6240 - h), channels := BitVec.ofNat 5 channels,
    rush := rush, state := .open_,
    planes := (supply.take ((h + 47) / 48 * (channelsIn (BitVec.ofNat 5 channels)).length)).map fun n => .page n false,
    coverage := none, queuedRefs := 0, garmentRefs := 0, printActive := false, removed := false }

section
variable {s : State} {id w h x y channels rush : Nat}

theorem decideOpen_state (ho : (openImage s).isSome = true) : decideOpen id w h x y channels rush s = refuse .state s :=
  if_pos ho

theorem decideOpen_exists (ho : openImage s = none) (hi : (imageOf id s).isSome = true) :
    decideOpen id w h x y channels rush s = refuse .exists_ s := by
  simp [decideOpen, ho, hi]

theorem decideOpen_range (ho : openImage s = none) (hi : imageOf id s = none)
    (hr : w < 16 ∨ 4800 < w ∨ h < 16 ∨ 6240 < h ∨ channels = 0 ∨ 32 ≤ channels ∨ 2 ≤ rush) :
    decideOpen id w h x y channels rush s = refuse .range s := by
  simp only [decideOpen, ho, hi, Option.isSome_none, Bool.false_eq_true, if_false]
  split
  next => rfl
  next size =>
    have fields : Config.fieldDots = 4800 ∧ Config.fieldLines = 6240 := ⟨rfl, rfl⟩
    have bad : (channels = 0 ∨ 32 ≤ channels) ∨ 2 ≤ rush := by omega
    rcases bad with bad | bad
    · rw [channelSetOf_none bad]
    · rw [flagOf_none bad]
      cases channelSetOf channels <;> rfl

/-- The operands lie within R29. -/
structure OpenInRange (w h channels rush : Nat) : Prop where
  width : 16 ≤ w ∧ w ≤ 4800
  height : 16 ≤ h ∧ h ≤ 6240
  channels : 1 ≤ channels ∧ channels < 32
  rush : rush < 2

theorem OpenInRange.size (k : OpenInRange w h channels rush) :
    ¬ (w < 16 ∨ Config.fieldDots < w ∨ h < 16 ∨ Config.fieldLines < h) := by
  obtain ⟨⟨w1, w2⟩, ⟨h1, h2⟩, -, -⟩ := k
  have fields : Config.fieldDots = 4800 ∧ Config.fieldLines = 6240 := ⟨rfl, rfl⟩
  omega

/-- With the operands in range the table and the supply may be short (R29, R31). -/
theorem decideOpen_full (ho : openImage s = none) (hi : imageOf id s = none) (k : OpenInRange w h channels rush)
    (hf : freeKey 64 s.ims.images = none ∨
      (pageSupply (rush == 1) s).length < (h + 47) / 48 * (channelsIn (BitVec.ofNat 5 channels)).length) :
    decideOpen id w h x y channels rush s = refuse .full s := by
  simp only [decideOpen, ho, hi, Option.isSome_none, Bool.false_eq_true, if_false, k.size,
    channelSetOf_some k.channels.1 k.channels.2, flagOf_some k.rush]
  split
  next => rfl
  next slot hk =>
    have taken : freeKey 64 s.ims.images ≠ none := fun e => by rw [e] at hk; cases hk
    exact if_pos (hf.resolve_left taken)

/-- With a slot and pages enough the image opens on the first of them (R30 to R32). -/
theorem decideOpen_accepted {slot : Nat} (ho : openImage s = none) (hi : imageOf id s = none)
    (k : OpenInRange w h channels rush) (hk : freeKey 64 s.ims.images = some slot)
    (hf : (h + 47) / 48 * (channelsIn (BitVec.ofNat 5 channels)).length ≤ (pageSupply (rush == 1) s).length) :
    decideOpen id w h x y channels rush s =
      accept (decide (4800 - w < x ∨ 6240 - h < y)) (noted (.image slot) { s with ims := { s.ims with
        images := tabSet slot (openedImage id w h x y channels (rush == 1) (pageSupply (rush == 1) s))
          s.ims.images } }) := by
  have clamped : (min x (Config.fieldDots - w) != x || min y (Config.fieldLines - h) != y) =
      decide (4800 - w < x ∨ 6240 - h < y) := by
    rw [min_ne_iff, min_ne_iff, Bool.decide_or]
  have slots : freeKey Config.imageSlots s.ims.images = some slot := hk
  simp only [decideOpen, ho, hi, Option.isSome_none, Bool.false_eq_true, if_false, k.size,
    channelSetOf_some k.channels.1 k.channels.2, flagOf_some k.rush, slots, clamped]
  exact if_neg (Nat.not_lt.mpr hf)

end

/-- Settles O28: IMAGE_OPEN by its checks in their order, and the supply by its members. -/
theorem imageOpen : Obligations.ImageOpen := by
  refine ⟨fun tag id w h x y channels rush s hs => ⟨fun ho => ?_, fun ho hi => ?_, fun ho hi hr => ?_,
    fun ho hi hw hw' hh hh' hc hc' hr hf => ?_⟩,
    fun tag id w h x y channels rush slot s hs ho hi hw hw' hh hh' hc hc' hr hk hf => ?_,
    fun s rush => ⟨pageSupply_sorted rush s, fun n => ?_⟩⟩
  · rw [exec_imageOpen hs, take_refused hs (decideOpen_state ho) rfl]
  · rw [exec_imageOpen hs, take_refused hs (decideOpen_exists ho hi) rfl]
  · rw [exec_imageOpen hs, take_refused hs (decideOpen_range ho hi hr) rfl]
  · have full := decideOpen_full (x := x) (y := y) ho hi ⟨⟨hw, hw'⟩, ⟨hh, hh'⟩, ⟨hc, hc'⟩, hr⟩
      (hf.imp_left freeKey_eq_none.mpr)
    rw [exec_imageOpen hs, take_refused hs full rfl]
  · have opened := decideOpen_accepted (x := x) (y := y) ho hi ⟨⟨hw, hw'⟩, ⟨hh, hh'⟩, ⟨hc, hc'⟩, hr⟩ hk hf
    rw [exec_imageOpen hs, take_accepted hs opened rfl]
    rfl
  · rw [mem_pageSupply, mem_ownedPages, reserveFrom_eq]
    refine and_congr_right fun _ => ?_
    rw [and_comm]
    refine and_congr_right fun _ => ?_
    simp

end Sys2Proof.Machine
end

section
/-!
SUPPORT and O35. What PRF decides on CONFIG_SET (R57), and what storing the settings does to tank, fluid test and
guards (R59, R94, R206).
-/

namespace Sys2Proof.Machine

/-! ### The entries -/

theorem namedOnce_iff (es : List SettingEntry) :
    namedOnce es = true ↔ es.Pairwise fun a b => ¬ (a.code = b.code ∧ a.index = b.index) := by
  induction es with
  | nil => simp [namedOnce]
  | cons e es ih =>
    simp only [namedOnce, Bool.and_eq_true, List.all_eq_true, ih, List.pairwise_cons]
    refine and_congr_left fun _ => forall₂_congr fun d _ => ?_
    rw [Bool.or_eq_true, bne_iff_ne, bne_iff_ne, not_and_or, ne_comm, ne_comm (a := d.index)]

/-- A setting is named twice: two places of the list name it (R230). -/
theorem namedOnce_false (es : List SettingEntry) : namedOnce es = false ↔
    ∃ (i j : Nat) (a b : SettingEntry), i < j ∧ es[i]? = some a ∧ es[j]? = some b ∧ a.code = b.code ∧
      a.index = b.index := by
  rw [← Bool.not_eq_true, namedOnce_iff, List.pairwise_iff_getElem]
  push Not
  constructor
  · rintro ⟨i, j, hi, hj, hij, h⟩
    exact ⟨i, j, es[i], es[j], hij, List.getElem?_eq_getElem hi, List.getElem?_eq_getElem hj, h⟩
  · rintro ⟨i, j, a, b, hij, hi, hj, h⟩
    obtain ⟨li, rfl⟩ := List.getElem?_eq_some_iff.mp hi
    obtain ⟨lj, rfl⟩ := List.getElem?_eq_some_iff.mp hj
    exact ⟨i, j, li, lj, hij, h⟩

theorem applySettings_cons_none {e : SettingEntry} {l : LineSettings} (h : applySetting e l = none)
    (es : List SettingEntry) : applySettings (e :: es) l = none := by
  simp [applySettings, h]

theorem applySettings_cons_some {e : SettingEntry} {l m : LineSettings} {c : Bool} (h : applySetting e l = some (m, c))
    (es : List SettingEntry) : applySettings (e :: es) l = (applySettings es m).map fun p => (p.1, c || p.2) := by
  simp [applySettings, h]

/-! ### The alarm records -/

theorem conditionEnd_length (i : Nat) (s : State) : (conditionEnd i s).alm.alarms.length = s.alm.alarms.length := by
  unfold conditionEnd
  dsimp only
  split
  · rw [noteAlarm_others]; simp [withAlarm, listMap]
  · simp [withAlarm, listMap]

theorem reportCondition_length (i : Nat) (now : Bool) (s : State) :
    (reportCondition i now s).alm.alarms.length = s.alm.alarms.length := by
  unfold reportCondition
  repeat' split
  all_goals simp [onset_length, conditionEnd_length]

theorem alarm_conditionEnd (i : Nat) (s : State) (h : i < s.alm.alarms.length) :
    alarm i (conditionEnd i s) = (alarm i s).ended := by
  unfold conditionEnd
  dsimp only
  split
  all_goals simp [alarm_noteAlarm, alarm_withAlarm _ _ _ _ h]

/-- After a report the condition stands as reported (R196). -/
theorem reportCondition_present (i : Nat) (now : Bool) (s : State) (h : i < s.alm.alarms.length) :
    (alarm i (reportCondition i now s)).present = now := by
  unfold reportCondition
  cases now <;> cases hp : (alarm i s).present
  case true.false => simp [alarm_onset _ _ _ _ h]
  case false.true =>
    simp only [Bool.false_eq_true, if_false, if_true, alarm_conditionEnd i s h, Alarm.ended]
    split
    · split <;> rfl
    · rfl
  all_goals simp [hp]

/-! ### What an event leaves of the settings, the tank and the platens -/

/-- `t` has the settings, inputs, tank and platens of `s`, its garments, its link function and its alarm table's size. -/
structure KeepsShop (s t : State) : Prop where
  prf : t.prf = s.prf
  pins : t.pins = s.pins
  tank : t.ptr.tank = s.ptr.tank
  platens : t.car.platens = s.car.platens
  garments : t.car.garments = s.car.garments
  configured : t.lnk.configured = s.lnk.configured
  alarms : t.alm.alarms.length = s.alm.alarms.length

theorem KeepsShop.refl (s : State) : KeepsShop s s := ⟨rfl, rfl, rfl, rfl, rfl, rfl, rfl⟩

theorem KeepsShop.trans {s t u : State} (h : KeepsShop s t) (k : KeepsShop t u) : KeepsShop s u :=
  ⟨k.prf.trans h.prf, k.pins.trans h.pins, k.tank.trans h.tank, k.platens.trans h.platens,
    k.garments.trans h.garments, k.configured.trans h.configured, k.alarms.trans h.alarms⟩

theorem Onward.keepsShop {s t : State} (h : Onward s t) : KeepsShop s t where
  prf := h.prf
  pins := h.pins
  tank := by have e := congrArg Ptr.tank h.ptr; exact e
  platens := by have e := congrArg Car.platens h.car; exact e
  garments := by have e := congrArg Car.garments h.car; exact e
  configured := by have e := congrArg Lnk.configured h.link; exact e
  alarms := congrArg (fun a => a.alarms.length) h.alm

theorem noteAlarm_configured (i : Nat) (s : State) : (noteAlarm i s).lnk.configured = s.lnk.configured := by
  unfold noteAlarm
  split <;> rfl

theorem reportCondition_configured (i : Nat) (now : Bool) (s : State) :
    (reportCondition i now s).lnk.configured = s.lnk.configured := by
  unfold reportCondition onset conditionEnd
  repeat' split
  all_goals simp [noteAlarm_configured, withAlarm]

theorem reportCondition_keepsShop (i : Nat) (now : Bool) (s : State) : KeepsShop s (reportCondition i now s) := by
  refine ⟨?_, ?_, ?_, ?_, ?_, reportCondition_configured i now s, reportCondition_length i now s⟩ <;> simp

theorem setHold_keepsShop (st : Station) (h : Hold) (s : State) : KeepsShop s (setHold st h s) := by
  unfold setHold
  split
  · exact .refl s
  · constructor <;> cases st <;> rfl

theorem retestFluid_keepsShop (s : State) : KeepsShop s (retestFluid s) := by
  have job : ∀ j, KeepsShop s (s.withPtr fun p => { p with job := j }) := fun _ => ⟨rfl, rfl, rfl, rfl, rfl, rfl, rfl⟩
  unfold retestFluid fluidTest
  repeat' split
  all_goals first
    | exact .refl s
    | exact ((job _).trans (setHold_keepsShop _ _ _)).trans (reportCondition_keepsShop _ _ _)

/-! ### Storing the settings -/

/-- `s` with the line settings replaced and the tank estimate cut to the new capacity (R59). -/
def stored (l : LineSettings) (s : State) : State :=
  { s with
    prf := { s.prf with line := l }
    ptr := { s.ptr with tank := min s.ptr.tank (l.tankCap * 1000000) } }

/-- `s` with the settings stored, and the fluid tested again where a tank setting has changed (R59, R94). -/
def retested (l : LineSettings) (s : State) : State :=
  if s.prf.line.tankCap = l.tankCap ∧ s.prf.line.tankReserve = l.tankReserve then stored l s
  else advance (retestFluid (stored l s))

theorem storeSettings_eq (l : LineSettings) (s : State) : storeSettings l s =
    if s.prf.line.guardMask = l.guardMask then retested l s else advance (judgeGuards (retested l s)) := rfl

section
variable {l : LineSettings} {s : State}

theorem retested_same (h : l.tankCap = s.prf.line.tankCap) (k : l.tankReserve = s.prf.line.tankReserve) :
    retested l s = stored l s :=
  if_pos ⟨h.symm, k.symm⟩

theorem retested_changed (h : l.tankCap ≠ s.prf.line.tankCap ∨ l.tankReserve ≠ s.prf.line.tankReserve) :
    retested l s = advance (retestFluid (stored l s)) :=
  if_neg fun ⟨e, f⟩ => h.elim (· e.symm) (· f.symm)

theorem storeSettings_unjudged (h : l.guardMask = s.prf.line.guardMask) : storeSettings l s = retested l s := by
  rw [storeSettings_eq, if_pos h.symm]

theorem storeSettings_judged (h : l.guardMask ≠ s.prf.line.guardMask) :
    storeSettings l s = advance (judgeGuards (retested l s)) := by
  rw [storeSettings_eq, if_neg h.symm]

theorem retested_keepsShop : KeepsShop (stored l s) (retested l s) := by
  unfold retested
  split
  · exact .refl _
  · exact (retestFluid_keepsShop _).trans (advance_onward _).1.keepsShop

theorem storeSettings_keepsShop : KeepsShop (stored l s) (storeSettings l s) := by
  rw [storeSettings_eq]
  split
  · exact retested_keepsShop
  · exact (retested_keepsShop.trans (reportCondition_keepsShop _ _ _)).trans (advance_onward _).1.keepsShop

theorem not_guardsHigh (s : State) :
    (!guardsHigh s) = decide (s.prf.line.guardMask &&& ~~~s.pins.guards ≠ 0) := by
  simp [guardsHigh, beq_eq_decide]

/-- A changed guard mask has the GUARD condition read as the inputs now stand (R206). -/
theorem storeSettings_guard_present (hs : Shaped s) (hg : l.guardMask ≠ s.prf.line.guardMask) :
    (alarm 1 (storeSettings l s)).present = decide (l.guardMask &&& ~~~s.pins.guards ≠ 0) := by
  have kept : KeepsShop (stored l s) (retested l s) := retested_keepsShop
  have table : 1 < (retested l s).alm.alarms.length := by
    obtain ⟨-, -, -, -, -, -, size, -⟩ := hs
    rw [kept.alarms]
    show 1 < s.alm.alarms.length
    omega
  have judged : (alarm 1 (judgeGuards (retested l s))).present = !guardsHigh (retested l s) :=
    reportCondition_present aGuard _ _ table
  rw [storeSettings_judged hg, alarm, (advance_onward _).1.alm, ← alarm, judged, not_guardsHigh, kept.prf, kept.pins]
  rfl

end

/-! ### The fluid test and the guards -/

theorem reportCondition_true (i : Nat) (s : State) :
    reportCondition i true s = if (alarm i s).present = true then s else alarmed i Alarm.begun s := by
  rw [reportCondition, if_pos rfl, onset_lev]

theorem reportCondition_false (i : Nat) (s : State) :
    reportCondition i false s = if (alarm i s).present = true then endedAt i s else s := by
  rw [reportCondition, if_neg Bool.false_ne_true, ended_eq]

/-- The fluid test as the statement gives it (R94). -/
theorem fluidTest_eq {k : Schedule} {s : State} (h : s.ptr.schedule = some k) : fluidTest s = fluidTested k s := by
  have same : ∀ (x : Hold) (u : State), alarm 4 (setHold .pretreat x u) = alarm 4 u := fun x u => by
    rw [alarm, alarm, (setHold_frame .pretreat x u).alm rfl]
  by_cases fits : k.fluid + s.prf.line.tankReserve * 1000000 ≤ s.ptr.tank
  · have test : fluidTest s =
        reportCondition 4 false (setHold .pretreat .none { s with ptr := { s.ptr with job := .waiting } }) := by
      rw [fluidTest, h]; exact if_pos fits
    rw [test, reportCondition_false, same, fluidTested, if_pos fits]
    rfl
  · have test : fluidTest s =
        reportCondition 4 true (setHold .pretreat .fluidLow { s with ptr := { s.ptr with job := .held } }) := by
      rw [fluidTest, h]; exact if_neg fits
    rw [test, reportCondition_true, same, fluidTested, if_neg fits]
    rfl

theorem retestFluid_idle {s : State} (hh : s.ptr.job ≠ .held) (hw : s.ptr.job ≠ .waiting) : retestFluid s = s := by
  unfold retestFluid
  split <;> simp_all

theorem retestFluid_eq {k : Schedule} {s : State} (hj : s.ptr.job = .held ∨ s.ptr.job = .waiting)
    (h : s.ptr.schedule = some k) : retestFluid s = fluidTested k s := by
  rw [← fluidTest_eq h]
  unfold retestFluid
  rcases hj with hj | hj <;> rw [hj]

/-- The guards judged (R205, R206): an onset, an end, or nothing new. -/
theorem judgeGuards_cases (s : State) :
    let low : Prop := s.prf.line.guardMask &&& ~~~s.pins.guards ≠ 0
    (low → (alarm 1 s).present = false → judgeGuards s = alarmed 1 Alarm.begun s) ∧
    (¬ low → (alarm 1 s).present = true → judgeGuards s = endedAt 1 s) ∧
    (((alarm 1 s).present = true ↔ low) → judgeGuards s = s) := by
  intro low
  have judged : judgeGuards s = reportCondition 1 (decide low) s :=
    congrArg (reportCondition 1 · s) (not_guardsHigh s)
  refine ⟨fun h hp => ?_, fun h hp => ?_, fun h => ?_⟩
  · rw [judged, decide_eq_true h, reportCondition_true, if_neg (by simp [hp])]
  · rw [judged, decide_eq_false h, reportCondition_false, if_pos hp]
  · by_cases hp : (alarm 1 s).present = true
    · rw [judged, decide_eq_true (h.mp hp), reportCondition_true, if_pos hp]
    · rw [judged, decide_eq_false (mt h.mpr hp), reportCondition_false, if_neg hp]

/-! ### The checks -/

/-- The line id may change (R57 check 5). -/
theorem lineIdFree_iff (s : State) : lineIdFree s = true ↔
    (s.car.line = .idle ∨ s.car.line = .stopped) ∧ s.ctc.tunnel = [] ∧ s.exs.recure = [] := by
  simp [lineIdFree, and_assoc]

/-- A new reserve is barred by a page of it that an image which is not rush holds (R26). -/
theorem reserveFits_false (r : Reserve) (s : State) : reserveFits r s = false ↔
    ∃ i ∈ s.ims.images, i.2.removed = false ∧ i.2.rush = false ∧
      ∃ n sent, Plane.page n sent ∈ i.2.planes ∧ 8192 - r.pages ≤ n := by
  have outside : ∀ planes : List Plane, (pagesOf planes).all (fun n => decide (n < reserveFrom r)) = false ↔
      ∃ n sent, Plane.page n sent ∈ planes ∧ 8192 - r.pages ≤ n := fun planes => by
    simp only [List.all_eq_false, mem_pagesOf, decide_eq_true_eq, not_lt, exists_and_right]
    rfl
  simp only [reserveFits, List.all_eq_false, Bool.or_eq_true, not_or, Bool.not_eq_true, and_assoc, outside]

/-- `s` with the level of KEY that came with a request (R52). -/
def keyed (key : Bool) (s : State) : State := { s with pins := { s.pins with key := key } }

theorem exec_configSet {s : State} (hs : Reads s) (tag : Byte) (key : Bool) (es : List SettingEntry) :
    exec (.configSet tag key es) s = .next (take 0x10 tag (decideConfig key es) s) :=
  congrArg _ (deliver_reads hs _)

section
variable {key : Bool} {es : List SettingEntry} {s : State} {l : LineSettings} {c : Bool}

/-- The list or an entry of it is out of range (R57 check 1, R230). -/
theorem decideConfig_list
    (h : es = [] ∨ 64 < es.length ∨ namedOnce es = false ∨ applySettings es s.prf.line = none) :
    decideConfig key es s = refuse .range (keyed key s) := by
  by_cases hl : es = [] ∨ 64 < es.length ∨ namedOnce es = false
  · exact if_pos hl
  · have ha : applySettings es s.prf.line = none := by tauto
    simp [decideConfig, hl, ha]
    rfl

/-- The list is stored, and the checks go on (R57 checks 3 to 6). -/
theorem decideConfig_applied (h0 : es ≠ []) (h64 : es.length ≤ 64) (h1 : namedOnce es = true)
    (ha : applySettings es s.prf.line = some (l, c)) : decideConfig key es s =
      if l.tankCap < l.tankReserve then refuse .range (keyed key s)
      else if s.prf.line.lock && !l.lock && !key then refuse .locked (keyed key s)
      else if s.prf.line.lineId != l.lineId && !lineIdFree s then refuse .state (keyed key s)
      else if s.prf.line.reserve != l.reserve && !reserveFits l.reserve s then refuse .state (keyed key s)
      else accept c (storeSettings l (keyed key s)) := by
  have hl : ¬ (es = [] ∨ 64 < es.length ∨ namedOnce es = false) := by
    rw [h1]
    rintro (h | h | h)
    · exact h0 h
    · omega
    · cases h
  simp only [decideConfig, hl, if_false, State.withPins_prf, ha]
  rfl

/-- A lock that the request would take off needs KEY (R52, R57 check 4). -/
def ConfigLocked (key : Bool) (l : LineSettings) (s : State) : Prop :=
  s.prf.line.lock = true ∧ l.lock = false ∧ key = false

/-- The line id or the reserve may not change as the line and the store stand (R26, R57 checks 5 and 6). -/
def ConfigBarred (l : LineSettings) (s : State) : Prop :=
  (s.prf.line.lineId ≠ l.lineId ∧
    ¬ ((s.car.line = .idle ∨ s.car.line = .stopped) ∧ s.ctc.tunnel = [] ∧ s.exs.recure = [])) ∨
  (s.prf.line.reserve ≠ l.reserve ∧ ∃ i ∈ s.ims.images, i.2.removed = false ∧ i.2.rush = false ∧
    ∃ n sent, Plane.page n sent ∈ i.2.planes ∧ 8192 - l.reserve.pages ≤ n)

theorem configLocked_iff : ConfigLocked key l s ↔ (s.prf.line.lock && !l.lock && !key) = true := by
  simp [ConfigLocked, and_assoc]

theorem configBarred_iff : ConfigBarred l s ↔
    (s.prf.line.lineId != l.lineId && !lineIdFree s) = true ∨
      (s.prf.line.reserve != l.reserve && !reserveFits l.reserve s) = true := by
  rw [ConfigBarred, ← lineIdFree_iff, ← reserveFits_false]
  simp

section
variable (h0 : es ≠ []) (h64 : es.length ≤ 64) (h1 : namedOnce es = true)
  (ha : applySettings es s.prf.line = some (l, c))
include h0 h64 h1 ha

theorem decideConfig_tank (ht : l.tankCap < l.tankReserve) : decideConfig key es s = refuse .range (keyed key s) := by
  rw [decideConfig_applied h0 h64 h1 ha, if_pos ht]

theorem decideConfig_locked (ht : l.tankReserve ≤ l.tankCap) (hl : ConfigLocked key l s) :
    decideConfig key es s = refuse .locked (keyed key s) := by
  rw [decideConfig_applied h0 h64 h1 ha, if_neg (Nat.not_lt.mpr ht), if_pos (configLocked_iff.mp hl)]

theorem decideConfig_barred (ht : l.tankReserve ≤ l.tankCap) (hl : ¬ ConfigLocked key l s) (hb : ConfigBarred l s) :
    decideConfig key es s = refuse .state (keyed key s) := by
  rw [decideConfig_applied h0 h64 h1 ha, if_neg (Nat.not_lt.mpr ht), if_neg (mt configLocked_iff.mpr hl)]
  split
  · rfl
  · next hid => exact if_pos ((configBarred_iff.mp hb).resolve_left hid)

theorem decideConfig_stored (ht : l.tankReserve ≤ l.tankCap) (hl : ¬ ConfigLocked key l s) (hb : ¬ ConfigBarred l s) :
    decideConfig key es s = accept c (storeSettings l (keyed key s)) := by
  have free := mt configBarred_iff.mpr hb
  rw [not_or] at free
  rw [decideConfig_applied h0 h64 h1 ha, if_neg (Nat.not_lt.mpr ht), if_neg (mt configLocked_iff.mpr hl),
    if_neg free.1, if_neg free.2]

theorem exec_configSet_stored (hs : Reads s) (tag : Byte) (ht : l.tankReserve ≤ l.tankCap)
    (hl : ¬ ConfigLocked key l s) (hb : ¬ ConfigBarred l s) : exec (.configSet tag key es) s =
      .next (replied 0x10 tag (acceptStatus c) [] (storeSettings l (keyed key s))) := by
  rw [exec_configSet hs, take_accepted hs (decideConfig_stored h0 h64 h1 ha ht hl hb)
    (storeSettings_keepsShop (l := l) (s := keyed key s)).configured]

end

end

/-- Settles O35: the checks in their order, and what the stored settings set off, through `storeSettings_eq`. -/
theorem configSet : Obligations.ConfigSet := by
  refine ⟨namedOnce_false, fun l => rfl, fun e es l => ⟨fun h => applySettings_cons_none h es, fun m c h =>
    ⟨fun k => ?_, fun n d k => ?_⟩⟩, fun tag key es s hs => ?_⟩
  · rw [applySettings_cons_some h, k]; rfl
  · rw [applySettings_cons_some h, k]; rfl
  intro u quiet
  refine ⟨fun h => ?_, fun l c h0 h64 h1 ha => ?_⟩
  · rw [exec_configSet hs, take_refused hs (decideConfig_list (key := key) h) rfl]; rfl
  intro locked barred
  refine ⟨fun ht => ?_, fun ht hl => ?_, fun ht hl hb => ?_, fun ht hl hb => ?_⟩
  · rw [exec_configSet hs, take_refused hs (decideConfig_tank (key := key) h0 h64 h1 ha ht) rfl]; rfl
  · rw [exec_configSet hs, take_refused hs (decideConfig_locked h0 h64 h1 ha ht hl) rfl]; rfl
  · rw [exec_configSet hs, take_refused hs (decideConfig_barred h0 h64 h1 ha ht hl hb) rfl]; rfl
  have done := exec_configSet_stored h0 h64 h1 ha hs tag ht hl hb
  have goesOn : ∀ v, storeSettings l u = advance v → ∃ t, exec (.configSet tag key es) s = .next t ∧
      Onward (replied 0x10 tag (acceptStatus c) [] v) t := fun v e =>
    ⟨_, done.trans (congrArg (fun x => Host.Outcome.next (replied 0x10 tag (acceptStatus c) [] x)) e),
      (advance_onward v).1.replied _ _ _ _⟩
  have tested : (l.tankCap ≠ s.prf.line.tankCap ∨ l.tankReserve ≠ s.prf.line.tankReserve) →
      l.guardMask = s.prf.line.guardMask → storeSettings l u = advance (retestFluid (stored l u)) := fun htank hg =>
    (storeSettings_unjudged (s := u) hg).trans (retested_changed (s := u) htank)
  refine ⟨fun hcap hres hg => ?_, fun htank hg => ⟨fun hh hw => ?_, fun k hj hk => ?_⟩, fun hcap hres hg => ?_, ?_⟩
  · have quietly : storeSettings l u = stored l u :=
      (storeSettings_unjudged (s := u) hg).trans (retested_same (s := u) hcap hres)
    exact done.trans (congrArg (fun x => Host.Outcome.next (replied 0x10 tag (acceptStatus c) [] x)) quietly)
  · exact goesOn _ ((tested htank hg).trans (congrArg advance (retestFluid_idle hh hw)))
  · exact goesOn _ ((tested htank hg).trans (congrArg advance (retestFluid_eq hj hk)))
  · obtain ⟨begins, ends, stays⟩ := judgeGuards_cases (stored l u)
    have judged : storeSettings l u = advance (judgeGuards (stored l u)) :=
      (storeSettings_judged (s := u) hg).trans
        (congrArg (fun x => advance (judgeGuards x)) (retested_same (s := u) hcap hres))
    refine ⟨fun low hp => goesOn _ ?_, fun high hp => goesOn _ ?_, fun same => goesOn _ ?_⟩
    · exact judged.trans (congrArg advance (begins low hp))
    · exact judged.trans (congrArg advance (ends high hp))
    · exact judged.trans (congrArg advance (stays same))
  · have kept : KeepsShop (stored l u) (storeSettings l u) := storeSettings_keepsShop
    have frame := storeSettings_frame l u
    exact ⟨_, done, kept.prf, rfl, kept.pins, kept.tank, frame.ord rfl, frame.ctc rfl, frame.exs rfl,
      storeSettings_store l u, kept.platens, kept.garments,
      fun shaped hg => storeSettings_guard_present (s := u) shaped hg⟩

end Sys2Proof.Machine
end

section
/-!
SUPPORT. What ORD does at the report that an image is DAMAGED (R9): every QUEUED unit that names it waits for it, leaves
the pick queue and gives up its reference. The fold over the units is described by a closed form of ORD and IMS.
-/

namespace Sys2Proof.Machine

/-! ### Tables as maps over their entries -/

theorem tabMap_eq_map {α : Type} (k : Nat) (f : α → α) (l : List (Nat × α)) :
    tabMap k f l = l.map fun p => (p.1, if p.1 = k then f p.2 else p.2) := by
  induction l with
  | nil => rfl
  | cons p l ih => obtain ⟨j, v⟩ := p; simp only [tabMap, ih, List.map_cons]

theorem tabGet_map {α β : Type} (k : Nat) (f : Nat → α → β) (l : List (Nat × α)) :
    tabGet k (l.map fun p => (p.1, f p.1 p.2)) = (tabGet k l).map (f k) := by
  induction l with
  | nil => rfl
  | cons p l ih =>
    obtain ⟨j, v⟩ := p
    by_cases h : j = k
    · subst h; simp [tabGet]
    · simp [tabGet, h, ih]

/-- A record found by a test that the change at key `k` does not touch. -/
theorem find_tabMap {α : Type} {k : Nat} {f : α → α} {q : Nat × α → Bool} (h : ∀ v, q (k, f v) = q (k, v))
    (l : List (Nat × α)) :
    (tabMap k f l).find? q = (l.find? q).map fun p => (p.1, if p.1 = k then f p.2 else p.2) := by
  have same : ∀ p : Nat × α, q (p.1, if p.1 = k then f p.2 else p.2) = q p := fun ⟨j, v⟩ => by
    by_cases e : j = k
    · subst e; simpa using h v
    · simp [e]
  rw [tabMap_eq_map, List.find?_map]
  congr 2
  funext p
  exact same p

/-- Two entries of a table in rising key order have different keys. -/
theorem tabWf_middle {α : Type} {front back : List (Nat × α)} {p : Nat × α} (h : tabWf (front ++ p :: back) = true) :
    (∀ q ∈ front, q.1 ≠ p.1) ∧ ∀ q ∈ back, q.1 ≠ p.1 := by
  rw [tabWf_iff, List.pairwise_append, List.pairwise_cons] at h
  obtain ⟨-, ⟨above, -⟩, below⟩ := h
  exact ⟨fun q hq => (below q hq p List.mem_cons_self).ne, fun q hq => (above q hq).ne'⟩

/-! ### The closed form -/

/-- The unit is QUEUED and names the image. -/
def queuedOn (id : Nat) (s : State) (u : UnitRec) : Bool := u.state == .queued && unitImage u s == some id

theorem queuedOn_iff {id : Nat} {s : State} {u : UnitRec} :
    queuedOn id s u = true ↔ u.state = .queued ∧ unitImage u s = some id := by
  simp [queuedOn]

/-- A unit after the report. -/
def afterDamage (id : Nat) (s : State) (u : UnitRec) : UnitRec :=
  { u with state := if u.state = .queued ∧ unitImage u s = some id then .waitImage else u.state }

theorem afterDamage_of {id : Nat} {s : State} {u : UnitRec} (h : queuedOn id s u = true) :
    afterDamage id s u = { u with state := .waitImage } := by
  rw [afterDamage, if_pos (queuedOn_iff.mp h)]

theorem afterDamage_of_not {id : Nat} {s : State} {u : UnitRec} (h : queuedOn id s u = false) :
    afterDamage id s u = u := by
  rw [afterDamage, if_neg fun k => by rw [queuedOn_iff.mpr k] at h; cases h]

/-- An order with `n` units fewer QUEUED and as many more waiting. -/
def Order.waiting (n : Nat) (o : Order) : Order :=
  { o with counts := { o.counts with queued := o.counts.queued - n, waitImage := o.counts.waitImage + n } }

/-- ORD once the units `done` have been looked at and `todo` have not. -/
def damagedOrd (id : Nat) (s : State) (done todo : List (Nat × UnitRec)) : Ord :=
  { s.ord with
    units := done.map (fun p => (p.1, afterDamage id s p.2)) ++ todo
    orders := s.ord.orders.map fun q =>
      (q.1, q.2.waiting (done.countP fun p => p.2.slot == q.1 && queuedOn id s p.2))
    queue := s.ord.queue.filter fun e => !done.any fun p => p.1 == e.seq && queuedOn id s p.2 }

/-- IMS once the units `done` have been looked at: the image in `slot` has lost their references (R10). -/
def damagedIms (id slot : Nat) (s : State) (done : List (Nat × UnitRec)) : Ims :=
  { s.ims with images := tabMap slot (fun i =>
      { i with queuedRefs := i.queuedRefs - done.countP fun p => queuedOn id s p.2 }) s.ims.images }

theorem damagedOrd_order (id : Nat) (s : State) (done todo : List (Nat × UnitRec)) (k : Nat) :
    tabGet k (damagedOrd id s done todo).orders = (tabGet k s.ord.orders).map
      (Order.waiting (done.countP fun p => p.2.slot == k && queuedOn id s p.2)) :=
  tabGet_map k (fun k => Order.waiting (done.countP fun p : Nat × UnitRec => p.2.slot == k && queuedOn id s p.2))
    s.ord.orders

theorem damagedOrd_units (id : Nat) (s : State) :
    (damagedOrd id s s.ord.units []).units = s.ord.units.map fun p => (p.1, afterDamage id s p.2) :=
  List.append_nil _

/-- `t` is `s` once the units `done` have been looked at. -/
structure DamagedSoFar (id slot : Nat) (s : State) (done todo : List (Nat × UnitRec)) (t : State) : Prop where
  ord : t.ord = damagedOrd id s done todo
  ims : t.ims = damagedIms id slot s done
  notes : NotesMore s t
  rest : { t with lnk := s.lnk, ord := s.ord, ims := s.ims } = s

/-- A QUEUED unit of an image in the table comes to wait for it (R7, R10, R23). -/
theorem moveUnit_waits {seq id slot : Nat} {u : UnitRec} {i : Image} {t : State}
    (hu : tabGet seq t.ord.units = some u) (hq : u.state = .queued) (hi : unitImage u t = some id)
    (hm : imageOf id t = some (slot, i)) :
    moveUnit seq .waitImage t = noted (.order u.slot) { t with
      ord := { t.ord with
        units := tabMap seq (fun u => { u with state := .waitImage }) t.ord.units
        orders := tabMap u.slot (Order.waiting 1) t.ord.orders
        queue := queueErase seq t.ord.queue }
      ims := { t.ims with
        images := tabMap slot (fun i => { i with queuedRefs := i.queuedRefs - 1 }) t.ims.images } } := by
  have table : ∀ f, imageOf id (t.withOrd f) = some (slot, i) := fun _ => hm
  simp only [moveUnit, hu, hq, if_true, dequeue, hi, takeRef, withImageId, table, reduceCtorEq, if_false]
  rfl

theorem unitImage_of_orders {s t : State} {f : Nat → Order → Order} (hf : ∀ k o, (f k o).items = o.items)
    (h : t.ord.orders = s.ord.orders.map fun q => (q.1, f q.1 q.2)) (u : UnitRec) : unitImage u t = unitImage u s := by
  rw [unitImage, unitImage, itemOf, itemOf, h, tabGet_map, Option.bind_map]
  congr 2
  funext o
  simp [hf]

section
variable {id slot : Nat} {s t : State} {done todo : List (Nat × UnitRec)} {p : Nat × UnitRec}

/-- The units before and after one of them that is QUEUED on the image waits. -/
theorem damagedUnits_step (hw : tabWf (done ++ p :: todo) = true) (hp : queuedOn id s p.2 = true) :
    tabMap p.1 (fun u => { u with state := .waitImage })
        (done.map (fun q => (q.1, afterDamage id s q.2)) ++ p :: todo) =
      (done ++ [p]).map (fun q => (q.1, afterDamage id s q.2)) ++ todo := by
  obtain ⟨front, back⟩ := tabWf_middle hw
  rw [tabMap_eq_map, List.map_append, List.map_cons, List.map_append, List.map_map, List.append_assoc]
  congr 1
  · refine List.map_congr_left fun q hq => ?_
    simp [front q hq]
  · rw [List.map_singleton, List.singleton_append, afterDamage_of hp, if_pos rfl]
    congr 1
    exact (List.map_congr_left fun q hq => by simp [back q hq]).trans (List.map_id _)

theorem damagedOrd_step (hw : tabWf (done ++ p :: todo) = true) (hp : queuedOn id s p.2 = true) :
    { damagedOrd id s done (p :: todo) with
      units := tabMap p.1 (fun u => { u with state := .waitImage }) (damagedOrd id s done (p :: todo)).units
      orders := tabMap p.2.slot (Order.waiting 1) (damagedOrd id s done (p :: todo)).orders
      queue := queueErase p.1 (damagedOrd id s done (p :: todo)).queue } = damagedOrd id s (done ++ [p]) todo := by
  have orders : tabMap p.2.slot (Order.waiting 1) (damagedOrd id s done (p :: todo)).orders =
      (damagedOrd id s (done ++ [p]) todo).orders := by
    simp only [damagedOrd, tabMap_eq_map, List.map_map]
    refine List.map_congr_left fun q _ => ?_
    by_cases e : p.2.slot = q.1
    · simp [e, hp, Order.waiting, Nat.sub_sub, Nat.add_assoc]
    · simp [e, Ne.symm e]
  have queue : queueErase p.1 (damagedOrd id s done (p :: todo)).queue =
      (damagedOrd id s (done ++ [p]) todo).queue := by
    simp only [damagedOrd, queueErase, List.filter_filter]
    refine List.filter_congr fun e _ => ?_
    simp [hp, Bool.and_comm, bne, Bool.beq_comm (a := e.seq)]
  rw [orders, queue]
  exact congrArg (fun x => { damagedOrd id s (done ++ [p]) todo with units := x }) (damagedUnits_step hw hp)

theorem damagedOrd_skip (hp : queuedOn id s p.2 = false) :
    damagedOrd id s done (p :: todo) = damagedOrd id s (done ++ [p]) todo := by
  simp [damagedOrd, hp, afterDamage_of_not hp]

theorem damagedIms_step (hp : queuedOn id s p.2 = true) :
    { damagedIms id slot s done with
      images := tabMap slot (fun i => { i with queuedRefs := i.queuedRefs - 1 }) (damagedIms id slot s done).images } =
      damagedIms id slot s (done ++ [p]) := by
  simp [damagedIms, tabMap_tabMap, hp, Nat.sub_sub]

theorem damagedIms_skip (hp : queuedOn id s p.2 = false) :
    damagedIms id slot s done = damagedIms id slot s (done ++ [p]) := by
  simp [damagedIms, hp]

theorem imageOf_damagedIms {i : Image} (hm : imageOf id s = some (slot, i)) (h : t.ims = damagedIms id slot s done) :
    ∃ j, imageOf id t = some (slot, j) := by
  rw [imageOf] at hm
  have found := find_tabMap (k := slot) (q := fun p : Nat × Image => p.2.id == id && !p.2.removed)
    (f := fun i => { i with queuedRefs := i.queuedRefs - done.countP fun p => queuedOn id s p.2 })
    (fun _ => rfl) s.ims.images
  rw [hm] at found
  exact ⟨_, by rw [imageOf, h]; exact found⟩

/-- One unit is looked at. -/
theorem DamagedSoFar.step {i : Image} (h : DamagedSoFar id slot s done (p :: todo) t)
    (hw : tabWf (done ++ p :: todo) = true) (hm : imageOf id s = some (slot, i)) :
    DamagedSoFar id slot s (done ++ [p]) todo
      (if p.2.state = .queued ∧ unitImage p.2 s = some id then moveUnit p.1 .waitImage t else t) := by
  obtain ⟨ord, ims, notes, rest⟩ := h
  by_cases hp : queuedOn id s p.2 = true
  · obtain ⟨hq, hi⟩ := queuedOn_iff.mp hp
    have unit : tabGet p.1 t.ord.units = some p.2 := by
      have front : tabGet p.1 (done.map fun q => (q.1, afterDamage id s q.2)) = none :=
        tabGet_none_of_ne fun q hq => by
          obtain ⟨r, hr, rfl⟩ := List.mem_map.mp hq
          exact (tabWf_middle hw).1 r hr
      rw [ord, damagedOrd, tabGet_append, front]
      simp [tabGet]
    have image : unitImage p.2 t = some id := by
      rw [← hi]
      exact unitImage_of_orders
        (f := fun k o => o.waiting (done.countP fun p => p.2.slot == k && queuedOn id s p.2))
        (fun _ _ => rfl) (congrArg Ord.orders ord) p.2
    obtain ⟨j, table⟩ := imageOf_damagedIms hm ims
    rw [if_pos ⟨hq, hi⟩, moveUnit_waits unit hq image table]
    refine ⟨?_, ?_, notes.trans ⟨noteIn_prefix _ _, rfl⟩, rest⟩
    · rw [← damagedOrd_step hw hp, ← ord]; rfl
    · rw [← damagedIms_step hp, ← ims]; rfl
  · rw [Bool.not_eq_true] at hp
    rw [if_neg fun k => by rw [queuedOn_iff.mpr k] at hp; cases hp]
    exact ⟨by rw [ord, damagedOrd_skip hp], by rw [ims, damagedIms_skip hp], notes, rest⟩

end

/-- Everything that the report that an image is DAMAGED does (R9). -/
theorem imageDamagedReport_does {id slot : Nat} {i : Image} {s : State} (hw : tabWf s.ord.units = true)
    (hm : imageOf id s = some (slot, i)) : DamagedSoFar id slot s s.ord.units [] (imageDamagedReport id s) := by
  have all : ∀ (todo done : List (Nat × UnitRec)) (t : State), s.ord.units = done ++ todo →
      DamagedSoFar id slot s done todo t → DamagedSoFar id slot s s.ord.units [] (todo.foldl (fun t p =>
        if p.2.state = .queued ∧ unitImage p.2 s = some id then moveUnit p.1 .waitImage t else t) t) := by
    intro todo
    induction todo with
    | nil => intro done t e h; rw [e, List.append_nil]; exact h
    | cons p todo ih =>
      intro done t e h
      exact ih (done ++ [p]) _ (by simp [e]) (h.step (e ▸ hw) hm)
  refine all s.ord.units [] s rfl ⟨?_, ?_, .refl s, rfl⟩
  · simp [damagedOrd, Order.waiting]
  · have same : tabMap slot (fun i => i) s.ims.images = s.ims.images := by simp [tabMap_eq_map]
    simp [damagedIms, same]

/-! ### The units follow -/

theorem unitImage_of_ord {s t : State} (h : t.ord = s.ord) (u : UnitRec) : unitImage u t = unitImage u s := by
  rw [unitImage, unitImage, itemOf, itemOf, h]

theorem queuedOn_of_ord {s t : State} (h : t.ord = s.ord) (id : Nat) : queuedOn id t = queuedOn id s :=
  funext fun u => by rw [queuedOn, queuedOn, unitImage_of_ord h]

theorem damagedOrd_congr {id : Nat} {s w : State} (h : w.ord = s.ord) (done todo : List (Nat × UnitRec)) :
    damagedOrd id w done todo = damagedOrd id s done todo := by
  have after : afterDamage id w = afterDamage id s := funext fun u => by rw [afterDamage, afterDamage, unitImage_of_ord h]
  rw [damagedOrd, damagedOrd, queuedOn_of_ord h, after, h]

/-- A queue entry is left by the report if its unit is not QUEUED on the image. -/
theorem damagedQueue_iff {id : Nat} {s : State} (hw : tabWf s.ord.units = true) (q : Nat) :
    (s.ord.units.any fun p => p.1 == q && queuedOn id s p.2) = true ↔
      ∃ u, tabGet q s.ord.units = some u ∧ queuedOn id s u = true := by
  simp only [List.any_eq_true, Bool.and_eq_true, beq_iff_eq, tabGet_mem_iff _ hw]
  constructor
  · rintro ⟨⟨_, u⟩, hp, rfl, hu⟩; exact ⟨u, hp, hu⟩
  · rintro ⟨u, hp, hu⟩; exact ⟨(q, u), hp, rfl, hu⟩

/-- The closed form is what the units, the orders and the pick queue follow by (R9). -/
theorem unitsFollow_damaged {id : Nat} {s t : State} (hw : tabWf s.ord.units = true)
    (h : t.ord = damagedOrd id s s.ord.units []) : UnitsFollow id .queued .waitImage s t where
  units := by rw [h, damagedOrd_units]; rfl
  orders k := by
    rw [h, damagedOrd_order]
    simp only [Bool.and_assoc]
    rfl
  seq := by rw [h]; rfl
  inOrder := fun k => by
    rw [QueueInOrder, h]
    exact List.Pairwise.filter _ k
  holds := by
    rintro ⟨distinct, holds⟩
    have units : ∀ q, tabGet q t.ord.units = (tabGet q s.ord.units).map (afterDamage id s) := fun q => by
      rw [h, damagedOrd_units, tabGet_map q fun _ => afterDamage id s]
    have left : ∀ e, e ∈ t.ord.queue ↔
        e ∈ s.ord.queue ∧ ¬ ∃ u, tabGet e.seq s.ord.units = some u ∧ queuedOn id s u = true := fun e => by
      rw [h, ← damagedQueue_iff hw, Bool.not_eq_true, ← Bool.not_eq_true']
      exact List.mem_filter
    refine ⟨?_, fun e => ?_⟩
    · rw [h]
      exact distinct.sublist (List.filter_sublist.map _)
    · rw [left, holds, units]
      constructor
      · rintro ⟨⟨u, hu, hq, hc⟩, stays⟩
        have off : queuedOn id s u = false := by
          rw [← Bool.not_eq_true]; exact fun on => stays ⟨u, hu, on⟩
        exact ⟨u, by rw [hu, Option.map_some, afterDamage_of_not off], hq, hc⟩
      · rintro ⟨v, hv, hq, hc⟩
        obtain ⟨u, hu, rfl⟩ := Option.map_eq_some_iff.mp hv
        have off : queuedOn id s u = false := by
          rw [← Bool.not_eq_true]
          intro on
          rw [afterDamage_of on] at hq
          cases hq
        rw [afterDamage_of_not off] at hq hc
        refine ⟨⟨u, hu, hq, hc⟩, ?_⟩
        rintro ⟨w, hw, on⟩
        rw [hu, Option.some.injEq] at hw
        rw [← hw, off] at on
        cases on

end Sys2Proof.Machine
end

section
/-!
SUPPORT. What a FIRE line sends and counts (R133 to R137): the row that takes a demand, the drops of the driven channels,
the tickles, and the lost dots.
-/

namespace Sys2Proof.Machine

theorem satAdd_eq_min (top k n : Nat) : satAdd top k n = min top (n + k) := by
  unfold satAdd
  split <;> omega

theorem drivenChannels_eq (stroke : Nat) : drivenChannels stroke = if stroke = 1 then [0] else [1, 2, 3, 4] := rfl

theorem nozzleNumber_eq (ch r x : Nat) : nozzleNumber ch r x = 9600 * ch + 4800 * r + x := rfl

/-- A nozzle number names one channel, row and position (R124). -/
theorem nozzleNumber_inj {ch r x ch' r' x' : Nat} (hr : r < 2) (hx : x < 4800) (hr' : r' < 2) (hx' : x' < 4800)
    (h : nozzleNumber ch r x = nozzleNumber ch' r' x') : ch = ch' ∧ r = r' ∧ x = x' := by
  simp only [nozzleNumber_eq] at h
  omega

/-! ### The row that takes the demand (R133) -/

section
variable {map : List (Nat × NozzleFault)} {ch n x : Nat}

theorem givenRow_base (h : nozzleState map (nozzleNumber ch (n % 2) x) ≠ some .dead) :
    givenRow map ch n x = some (n % 2) := if_pos h

theorem givenRow_other (h : nozzleState map (nozzleNumber ch (n % 2) x) = some .dead)
    (k : nozzleState map (nozzleNumber ch (1 - n % 2) x) ≠ some .dead) : givenRow map ch n x = some (1 - n % 2) := by
  rw [givenRow, if_neg (not_not.mpr h), if_pos k]

theorem givenRow_uncovered (h : nozzleState map (nozzleNumber ch (n % 2) x) = some .dead)
    (k : nozzleState map (nozzleNumber ch (1 - n % 2) x) = some .dead) : givenRow map ch n x = none := by
  rw [givenRow, if_neg (not_not.mpr h), if_neg (not_not.mpr k)]

/-- A position is uncovered where the nozzles of both rows are DEAD (R134). -/
theorem givenRow_eq_none : givenRow map ch n x = none ↔
    nozzleState map (nozzleNumber ch 0 x) = some .dead ∧ nozzleState map (nozzleNumber ch 1 x) = some .dead := by
  have rows : givenRow map ch n x = none ↔ nozzleState map (nozzleNumber ch (n % 2) x) = some .dead ∧
      nozzleState map (nozzleNumber ch (1 - n % 2) x) = some .dead := by
    constructor
    · intro h
      by_cases base : nozzleState map (nozzleNumber ch (n % 2) x) = some .dead
      · by_cases other : nozzleState map (nozzleNumber ch (1 - n % 2) x) = some .dead
        · exact ⟨base, other⟩
        · rw [givenRow_other base other] at h; cases h
      · rw [givenRow_base base] at h; cases h
    · exact fun h => givenRow_uncovered h.1 h.2
  rcases Nat.mod_two_eq_zero_or_one n with e | e
  · rw [rows, e]
  · rw [rows, e, and_comm]

theorem firedBy_given {r : Nat} (h : givenRow map ch n x = some r) (demands : Nat → Nat) :
    firedBy map demands ch n r x = weaken (nozzleState map (nozzleNumber ch r x)) (demands x) := if_pos h

theorem firedBy_not_given {r : Nat} (h : givenRow map ch n x ≠ some r) (demands : Nat → Nat) :
    firedBy map demands ch n r x = 0 := if_neg h

/-- The base row fires where its nozzle is not DEAD, and the other row nothing. -/
theorem firedBy_base (h : nozzleState map (nozzleNumber ch (n % 2) x) ≠ some .dead) (demands : Nat → Nat) :
    firedBy map demands ch n (n % 2) x = weaken (nozzleState map (nozzleNumber ch (n % 2) x)) (demands x) ∧
      firedBy map demands ch n (1 - n % 2) x = 0 :=
  ⟨firedBy_given (givenRow_base h) demands,
    firedBy_not_given (by rw [givenRow_base h, ne_eq, Option.some.injEq]; omega) demands⟩

/-- The other row fires where the nozzle of the base row is DEAD and its own is not. -/
theorem firedBy_other (h : nozzleState map (nozzleNumber ch (n % 2) x) = some .dead)
    (k : nozzleState map (nozzleNumber ch (1 - n % 2) x) ≠ some .dead) (demands : Nat → Nat) :
    firedBy map demands ch n (n % 2) x = 0 ∧ firedBy map demands ch n (1 - n % 2) x =
      weaken (nozzleState map (nozzleNumber ch (1 - n % 2) x)) (demands x) :=
  ⟨firedBy_not_given (by rw [givenRow_other h k, ne_eq, Option.some.injEq]; omega) demands,
    firedBy_given (givenRow_other h k) demands⟩

/-- No row fires at an uncovered position. -/
theorem firedBy_uncovered (h : nozzleState map (nozzleNumber ch (n % 2) x) = some .dead)
    (k : nozzleState map (nozzleNumber ch (1 - n % 2) x) = some .dead) (demands : Nat → Nat) (r : Nat) :
    firedBy map demands ch n r x = 0 :=
  firedBy_not_given (by rw [givenRow_uncovered h k]; simp) demands

end

/-! ### The drops of a line (R136) -/

theorem mem_channelDrops {map : List (Nat × NozzleFault)} {demands : Nat → Nat} {ch n nz v : Nat} :
    (nz, v) ∈ channelDrops map demands ch n ↔
      ∃ r x, r < 2 ∧ x < 4800 ∧ nz = nozzleNumber ch r x ∧ v = firedBy map demands ch n r x ∧ v ≠ 0 := by
  simp only [channelDrops, List.mem_flatMap, List.mem_filterMap, List.mem_range]
  constructor
  · rintro ⟨r, hr, x, hx, h⟩
    split at h
    · cases h
    · cases h
      exact ⟨r, x, hr, hx, rfl, rfl, ‹_›⟩
  · rintro ⟨r, x, hr, hx, rfl, rfl, h0⟩
    exact ⟨r, hr, x, hx, by rw [if_neg h0]⟩

/-- The drops that the channels fire on a line, by nozzle. -/
def lineDrops (map : List (Nat × NozzleFault)) (demands : Nat → Nat → Nat) (channels : List Nat) (n : Nat) :
    List (Nat × Nat) := channels.flatMap fun ch => channelDrops map (demands ch) ch n

theorem mem_lineDrops {map : List (Nat × NozzleFault)} {demands : Nat → Nat → Nat} {channels : List Nat}
    {ch n r x v : Nat} (hc : ch ∈ channels) (hr : r < 2) (hx : x < 4800) :
    (nozzleNumber ch r x, v) ∈ lineDrops map demands channels n ↔ v ≠ 0 ∧ v = firedBy map (demands ch) ch n r x := by
  simp only [lineDrops, List.mem_flatMap, mem_channelDrops]
  constructor
  · rintro ⟨ch', -, r', x', hr', hx', number, value, h0⟩
    obtain ⟨rfl, rfl, rfl⟩ := nozzleNumber_inj hr hx hr' hx' number
    exact ⟨h0, value⟩
  · rintro ⟨h0, value⟩
    exact ⟨ch, hc, r, x, hr, hx, rfl, value, h0⟩

/-! ### The tickles (R137) -/

/-- The nozzles that receive a tickle on a FIRE line with the drops `drops`. -/
def lineTicks (k : Stroke) (drops : List (Nat × Nat)) : List Nat :=
  k.idle.filterMap fun e =>
    if (idleFire k.interval (drops.any fun d => d.1 == e.1) e.2).2 = true then some e.1 else none

theorem idleFire_ticks {interval c : Nat} {fired : Bool} :
    (idleFire interval fired c).2 = true ↔ fired = false ∧ interval ≤ c + 1 := by
  unfold idleFire
  cases fired
  · by_cases h : interval ≤ c + 1 <;> simp [h]
  · simp

theorem idleFire_count (interval c : Nat) (fired : Bool) :
    (idleFire interval fired c).1 = if fired = true ∨ interval ≤ c + 1 then 0 else c + 1 := by
  unfold idleFire
  cases fired
  · by_cases h : interval ≤ c + 1 <;> simp [h]
  · simp

theorem mem_lineTicks {k : Stroke} {drops : List (Nat × Nat)} {x : Nat} :
    x ∈ lineTicks k drops ↔ (∀ v, (x, v) ∉ drops) ∧ ∃ c, (x, c) ∈ k.idle ∧ k.interval ≤ c + 1 := by
  have silent : (drops.any fun d => d.1 == x) = false ↔ ∀ v, (x, v) ∉ drops := by
    simp only [List.any_eq_false, beq_iff_eq]
    exact ⟨fun h v hv => h _ hv rfl, fun h d hd e => h d.2 (e ▸ hd)⟩
  rw [← silent]
  simp only [lineTicks, List.mem_filterMap]
  constructor
  · rintro ⟨⟨y, c⟩, hc, h⟩
    split at h
    next ticks =>
      cases h
      obtain ⟨none, due⟩ := idleFire_ticks.mp ticks
      exact ⟨none, c, hc, due⟩
    next => cases h
  · rintro ⟨none, c, hc, due⟩
    exact ⟨(x, c), hc, if_pos (idleFire_ticks.mpr ⟨none, due⟩)⟩

/-! ### The values of a line -/

/-- What a FIRE line sends: its drops, then its tickles (R136). -/
def lineValues (drops : List (Nat × Nat)) (ticks : List Nat) : List (Nat × FireValue) :=
  drops.map (fun d => (d.1, FireValue.drop d.2)) ++ ticks.map fun nz => (nz, FireValue.tickle)

theorem drop_mem_lineValues {drops : List (Nat × Nat)} {ticks : List Nat} {x v : Nat} :
    (x, FireValue.drop v) ∈ lineValues drops ticks ↔ (x, v) ∈ drops := by
  simp [lineValues]

theorem tickle_mem_lineValues {drops : List (Nat × Nat)} {ticks : List Nat} {x : Nat} :
    (x, FireValue.tickle) ∈ lineValues drops ticks ↔ x ∈ ticks := by
  simp [lineValues]

theorem any_lineValues (drops : List (Nat × Nat)) (ticks : List Nat) (x : Nat) :
    ((lineValues drops ticks).any fun d => d.1 == x && d.2 != .tickle) = drops.any fun d => d.1 == x := by
  simp [lineValues, Function.comp_def, show ∀ v, (FireValue.drop v != .tickle) = true from fun _ => rfl]

theorem countP_lineValues (drops : List (Nat × Nat)) (ticks : List Nat) :
    ((lineValues drops ticks).countP fun d => d.2 == .tickle) = ticks.length := by
  simp [lineValues, List.countP_append, List.countP_map, Function.comp_def,
    show ∀ v, (FireValue.drop v == .tickle) = false from fun _ => rfl]

/-! ### The line -/

theorem channelLost_eq (map : List (Nat × NozzleFault)) (demands : Nat → Nat) (ch n : Nat) :
    channelLost map demands ch n = (List.range 4800).countP fun x =>
      decide (nozzleState map (9600 * ch + x) = some .dead ∧ nozzleState map (9600 * ch + 4800 + x) = some .dead ∧
        demands x ≠ 0) := by
  refine List.countP_congr fun x _ => ?_
  have uncovered := givenRow_eq_none (map := map) (ch := ch) (n := n) (x := x)
  simp only [nozzleNumber_eq, Nat.mul_zero, Nat.mul_one, Nat.add_zero] at uncovered
  simp [uncovered, and_assoc]

/-- The stroke state after a FIRE line with the drops `drops` and the demands `demands` (R134, R137). -/
def strokeFired (k : Stroke) (demands : Nat → Nat → Nat) (channels : List Nat) (n : Nat) (drops : List (Nat × Nat)) :
    Stroke :=
  { k with
    idle := k.idle.map fun e => (e.1, (idleFire k.interval (drops.any fun d => d.1 == e.1) e.2).1)
    lostDots := satAdd 16777215 ((channels.map fun ch => channelLost k.map (demands ch) ch n).sum) k.lostDots
    tickles := satAdd 16777215 (lineTicks k drops).length k.tickles }

theorem composeLine_fdp {serial stroke n : Nat} {s : State} {g : Garment} {k : Stroke} (hg : garment serial s = some g)
    (hk : s.fdp.stroke = some k) :
    let demands := fun ch => demand g k (printImage g s) ch n s
    let drops := lineDrops k.map demands (drivenChannels stroke) n
    (composeLine serial stroke n s).fdp = { s.fdp with
      head := s.fdp.head ++ [{ line := some n, values := lineValues drops (lineTicks k drops) }]
      stroke := some (strokeFired k demands (drivenChannels stroke) n drops) } := by
  simp only [composeLine, hg, hk, List.flatMap_map, List.map_map, State.withFdp, strokeFired, lineDrops, lineTicks,
    lineValues, Function.comp_def]
  rfl

/-- What a FIRE line sends and counts, by the demands of its channels (R133 to R137). -/
theorem composeLine_fires {serial stroke n : Nat} {s : State} {g : Garment} {k : Stroke} (hg : garment serial s = some g)
    (hk : s.fdp.stroke = some k) :
    ∃ j vs, (composeLine serial stroke n s).fdp.stroke = some j ∧
      (composeLine serial stroke n s).fdp.head = s.fdp.head ++ [{ line := some n, values := vs }] ∧
      (∀ ch r x v, ch ∈ drivenChannels stroke → r < 2 → x < 4800 → ((nozzleNumber ch r x, .drop v) ∈ vs ↔
        v ≠ 0 ∧ v = firedBy k.map (demand g k (printImage g s) ch n s) ch n r x)) ∧
      (∀ x, (x, .tickle) ∈ vs ↔ (∀ v, (x, .drop v) ∉ vs) ∧ ∃ c, (x, c) ∈ k.idle ∧ k.interval ≤ c + 1) ∧
      j.idle = k.idle.map (fun e =>
        (e.1, if (vs.any fun d => d.1 == e.1 && d.2 != .tickle) = true ∨ k.interval ≤ e.2 + 1 then 0 else e.2 + 1)) ∧
      j.tickles = min 16777215 (k.tickles + vs.countP fun d => d.2 == .tickle) ∧
      j.lostDots = min 16777215 (k.lostDots +
        ((drivenChannels stroke).map fun ch => channelLost k.map (demand g k (printImage g s) ch n s) ch n).sum) := by
  have line := composeLine_fdp (stroke := stroke) (n := n) hg hk
  refine ⟨_, _, by rw [line], by rw [line], fun ch r x v hc hr hx => ?_, fun x => ?_, ?_, ?_, ?_⟩
  · rw [drop_mem_lineValues, mem_lineDrops hc hr hx]
  · simp only [tickle_mem_lineValues, drop_mem_lineValues, mem_lineTicks]
  · simp only [any_lineValues, strokeFired, idleFire_count]
  · rw [countP_lineValues, ← satAdd_eq_min, strokeFired]
  · rw [← satAdd_eq_min, strokeFired]

end Sys2Proof.Machine
end

section
/-!
SUPPORT. The demand of a dot (R130 to R132): from the image's page in the store, and from the neck mark.
-/

namespace Sys2Proof.Machine

/-! ### The dots of the image (R130) -/

section
variable {i : Image} {ch n x : Nat} {s : State}

/-- A channel that does not lay the mark takes its demand from the image alone, and there is none without one. -/
theorem demand_none {k : Stroke} (h : ch ≠ 4 ∨ k.mark = none) (g : Garment) : demand g k none ch n s x = 0 := by
  cases hm : k.mark with
  | none => simp [demand, hm]
  | some bits => simp [demand, hm, h.resolve_right (by simp [hm])]

theorem demand_some {k : Stroke} (h : ch ≠ 4 ∨ k.mark = none) (g : Garment) (i : Image) :
    demand g k (some i) ch n s x = rowDemand i (rowBytes i ch n s) x := by
  cases hm : k.mark with
  | none => simp [demand, hm]
  | some bits => simp [demand, hm, h.resolve_right (by simp [hm])]

theorem rowDemand_nil (i : Image) (x : Nat) : rowDemand i [] x = 0 := by
  simp [rowDemand, dotOf]

theorem rowDemand_outside (h : x < i.x0 ∨ i.x0 + i.w ≤ x) (row : List Byte) : rowDemand i row x = 0 := if_pos h

theorem rowBytes_outside (h : n < i.y0 ∨ i.y0 + i.h ≤ n) : rowBytes i ch n s = [] := if_pos h

theorem rowBytes_undeclared (h : i.channels.getLsbD ch = false) : rowBytes i ch n s = [] := by
  simp [rowBytes, planeIndex_none (.inl h)]

section
variable {e : Nat} (hy : i.y0 ≤ n) (hh : n < i.y0 + i.h) (hc : i.channels.getLsbD ch = true)
  (he : e = (channelsIn i.channels).idxOf ch * ((i.h + 47) / 48) + (n - i.y0) / 48)
include hy hh hc he

theorem planeIndex_line : planeIndex i.channels i.h ch ((n - i.y0) / 48) = some e := by
  rw [he]
  exact planeIndex_some hc (by omega)

theorem rowBytes_noPage (h : ∀ p sent, i.planes[e]? ≠ some (.page p sent)) : rowBytes i ch n s = [] := by
  rw [rowBytes, if_neg (by omega), planeIndex_line hy hh hc he, Option.bind_some]
  split
  next p sent page => exact absurd page (h p sent)
  next => rfl

theorem rowBytes_page {p : Nat} {sent : Bool} (h : i.planes[e]? = some (.page p sent)) : rowBytes i ch n s =
    (List.range ((i.w + 3) / 4)).map fun j =>
      storeRead s.ims.store (65536 * p + (n - i.y0) % 48 * ((i.w + 3) / 4) + j) := by
  rw [rowBytes, if_neg (by omega), planeIndex_line hy hh hc he, Option.bind_some, h, Nat.mul_comm 65536 p]
  rfl

end

/-- A dot is two bits of its byte in the row (R24). -/
theorem rowDemand_inside (h0 : i.x0 ≤ x) (h1 : x < i.x0 + i.w) (byte : Nat → Byte) :
    rowDemand i ((List.range ((i.w + 3) / 4)).map byte) x =
      (byte ((x - i.x0) / 4)).toNat / 4 ^ (3 - (x - i.x0) % 4) % 4 := by
  have inRow : (x - i.x0) / 4 < (i.w + 3) / 4 := by omega
  simp [rowDemand, show ¬ (x < i.x0 ∨ i.x0 + i.w ≤ x) by omega, dotOf, inRow]

end

/-! ### The neck mark (R131, R132) -/

/-- In the mark area the K demand is the mark's, and the image's elsewhere. -/
theorem demand_mark {k : Stroke} {bits : BitVec 24} (h : k.mark = some bits) (g : Garment) (img : Option Image)
    (n x : Nat) (s : State) : demand g k img 4 n s x =
      (markDemand g.profile bits n x).getD (demand g { k with mark := none } img 4 n s x) := by
  simp [demand, h]

/-- The bits of the mark are those of the line id and the serial as one number, most significant first. -/
theorem markBits_toNat {lineId serial : Nat} (hl : lineId < 256) (hs : serial < 65536) :
    (markBits lineId serial).toNat = lineId * 65536 + serial := by
  rw [markBits, BitVec.toNat_append, BitVec.toNat_ofNat, BitVec.toNat_ofNat, Nat.mod_eq_of_lt hl, Nat.mod_eq_of_lt hs,
    ← Nat.shiftLeft_add_eq_or_of_lt hs, Nat.shiftLeft_eq]

theorem markBits_getMsbD {lineId serial m : Nat} (hl : lineId < 256) (hs : serial < 65536) (hm : m < 24) :
    (markBits lineId serial).getMsbD m = (lineId * 65536 + serial).testBit (23 - m) := by
  rw [BitVec.getMsbD_eq_getLsbD, ← markBits_toNat hl hs, ← BitVec.testBit_toNat]
  simp [hm]

/-- Each cell of the mark is 8 dots by 8 lines, and 6 cells stand in a row (R132). -/
theorem markDemand_cell (p : Profile) (bits : BitVec 24) {i j dx dy : Nat} (hi : i < 6) (hj : j < 4) (hx : dx < 8)
    (hy : dy < 8) : markDemand p bits (p.markY + 8 * j + dy) (p.markX + 8 * i + dx) =
      some (if bits.getMsbD (6 * j + i) = true then 3 else 0) := by
  rw [markDemand, if_pos (by omega), show (p.markY + 8 * j + dy - p.markY) / 8 = j by omega,
    show (p.markX + 8 * i + dx - p.markX) / 8 = i by omega]

end Sys2Proof.Machine
end

section
/-!
SUPPORT and O55. The page reads of a line: which band-planes a line reads, and what each read does (R45, R46, R129).
-/

namespace Sys2Proof.Machine

/-! ### Which band-planes are read (R129) -/

/-- The band-planes that the running stroke has read. -/
def planesRead (s : State) : List (Nat × Nat) := (s.fdp.stroke.map Stroke.read).getD []

theorem planesRead_of {s : State} {k : Stroke} (h : s.fdp.stroke = some k) : planesRead s = k.read := by
  simp [planesRead, h]

theorem planesRead_of_fdp {s t : State} (h : t.fdp = s.fdp) : planesRead t = planesRead s := by
  rw [planesRead, planesRead, h]

theorem planesRead_losePlane (serial ch b : Nat) (s : State) : planesRead (losePlane serial ch b s) = planesRead s := by
  show ((s.fdp.stroke.map fun k => { k with lost := k.lost ++ [(ch, b)] }).map Stroke.read).getD [] = _
  rw [Option.map_map]
  rfl

/-- An uncorrectable read changes nothing that the stroke holds. -/
theorem damagedRead_fdp (slot e p : Nat) (s : State) : (damageImage slot (losePage slot e p s)).fdp = s.fdp :=
  ((damageImage_frame _ _).fdp rfl).trans ((losePage_frame _ _ _ _).fdp rfl)

/-- A read adds its own band-plane to those read, and no other. -/
theorem planesRead_readPlane (serial slot : Nat) (i : Image) (ch b : Nat) (p : State × List ReadResult) :
    planesRead (readPlane serial slot i ch b p).1 =
      planesRead (withStroke (fun k => { k with read := k.read ++ [(ch, b)] }) p.1) := by
  simp only [readPlane]
  split
  · rfl
  · split
    · split
      · rfl
      · rfl
      · rw [planesRead_losePlane]
        exact planesRead_of_fdp (damagedRead_fdp _ _ _ _)
    · rw [planesRead_losePlane]
    · rfl

theorem mem_planesRead_readPlane {serial slot ch b c : Nat} {i : Image} {p : State × List ReadResult} (h : c ≠ ch) :
    (planesRead (readPlane serial slot i ch b p).1).contains (c, b) = (planesRead p.1).contains (c, b) := by
  rw [planesRead_readPlane]
  cases hk : p.1.fdp.stroke with
  | none => simp [planesRead, withStroke, State.withFdp, hk]
  | some k => simp [planesRead, withStroke, State.withFdp, hk, h]

/-- The channels of a line are read one after another, each by whether the stroke had read it before the line. -/
theorem foldl_readPlane (serial slot b : Nat) (i : Image) {channels : List Nat} (hn : channels.Nodup)
    (q : State × List ReadResult) :
    channels.foldl (fun q ch =>
      if i.channels.getLsbD ch = true ∧ (planesRead q.1).contains (ch, b) = false then readPlane serial slot i ch b q
      else q) q =
    (channels.filter fun ch => i.channels.getLsbD ch && !(planesRead q.1).contains (ch, b)).foldl
      (fun q ch => readPlane serial slot i ch b q) q := by
  induction channels generalizing q with
  | nil => rfl
  | cons ch channels ih =>
    obtain ⟨fresh, nodup⟩ := List.nodup_cons.mp hn
    rw [List.foldl_cons, ih nodup]
    by_cases reads : i.channels.getLsbD ch = true ∧ (planesRead q.1).contains (ch, b) = false
    · rw [if_pos reads, List.filter_cons_of_pos (by rw [reads.1, reads.2]; rfl), List.foldl_cons]
      congr 1
      refine List.filter_congr fun c hc => ?_
      rw [mem_planesRead_readPlane (ne_of_mem_of_not_mem hc fresh)]
    · rw [if_neg reads, List.filter_cons_of_neg (by simpa using reads)]

theorem drivenChannels_nodup (stroke : Nat) : (drivenChannels stroke).Nodup := by
  rw [drivenChannels_eq]
  split <;> decide

section
variable {serial stroke n slot id : Nat} {s : State} {g : Garment} {i : Image}

theorem readBands_noImage (hg : garment serial s = some g) (hi : g.image = none) (reads : List ReadResult) :
    readBands serial stroke n (s, reads) = (s, reads) := by
  simp [readBands, hg, hi]

theorem readBands_outside (hg : garment serial s = some g) (hi : g.image = some id) (hm : imageOf id s = some (slot, i))
    (h : n < i.y0 ∨ i.y0 + i.h ≤ n) (reads : List ReadResult) : readBands serial stroke n (s, reads) = (s, reads) := by
  simp [readBands, hg, hi, hm, h]

theorem readBands_inside (hg : garment serial s = some g) (hi : g.image = some id) (hm : imageOf id s = some (slot, i))
    (hy : i.y0 ≤ n) (hh : n < i.y0 + i.h) (reads : List ReadResult) : readBands serial stroke n (s, reads) =
      ((drivenChannels stroke).filter fun ch =>
        i.channels.getLsbD ch && !(planesRead s).contains (ch, (n - i.y0) / 48)).foldl
          (fun q ch => readPlane serial slot i ch ((n - i.y0) / 48) q) (s, reads) := by
  rw [← foldl_readPlane serial slot _ i (drivenChannels_nodup stroke)]
  simp only [readBands, hg, hi, hm, Option.bind_some, if_neg (show ¬ (n < i.y0 ∨ i.y0 + i.h ≤ n) by omega)]
  rfl

end

/-! ### One read -/

theorem mem_retireIn {m n : Nat} {l : List Nat} : m ∈ retireIn n l ↔ m ∈ l ∨ m = n := by
  induction l with
  | nil => simp [retireIn]
  | cons h t ih =>
    unfold retireIn
    split
    · simp only [List.mem_cons]; tauto
    · split
      next e => subst e; simp only [List.mem_cons]; tauto
      next => simp only [List.mem_cons, ih]; tauto

/-- What an uncorrectable read does to IMS, before the image is judged: the page is retired and its entry LOST (R46). -/
theorem losePage_ims (slot e p : Nat) (s : State) : (losePage slot e p s).ims = { s.ims with
    retired := retireIn p s.ims.retired
    images := tabMap slot (fun i => { i with planes := i.planes.set e .lost }) s.ims.images } := by
  rw [losePage, onset_ims]
  rfl

theorem losePage_alm (slot e p : Nat) (s : State) : (losePage slot e p s).alm = (alarmed 17 Alarm.passed s).alm := by
  rw [losePage, onset_mom]
  unfold alarmed
  split <;> split <;> rfl

theorem damageImage_not_ready {slot : Nat} {i : Image} {s : State} (hi : tabGet slot s.ims.images = some i)
    (hr : i.state ≠ .ready) : damageImage slot s = s := by
  simp [damageImage, hi, hr]

/-- The image in `slot` marked DAMAGED and appended, before ORD follows (R46). -/
def markedDamaged (slot : Nat) (s : State) : State :=
  note (.image slot) (withImage slot (fun i => { i with state := .damaged }) s)

theorem damageImage_ready {slot : Nat} {i : Image} {s : State} (hi : tabGet slot s.ims.images = some i)
    (hr : i.state = .ready) : damageImage slot s = imageDamagedReport i.id (markedDamaged slot s) := by
  simp [damageImage, hi, hr, markedDamaged]

/-- An image found by its id is found by it after a change that keeps its id and its removal. -/
theorem imageOf_tabMap {id slot : Nat} {i : Image} {f : Image → Image} {s t : State} (hid : ∀ j, (f j).id = j.id)
    (hrem : ∀ j, (f j).removed = j.removed) (ht : t.ims.images = tabMap slot f s.ims.images)
    (h : imageOf id s = some (slot, i)) : imageOf id t = some (slot, f i) := by
  rw [imageOf] at h
  rw [imageOf, ht, find_tabMap (f := f) (fun v => by simp only [hid, hrem]), h]
  simp

/-- A READY image after an uncorrectable read of its entry `e`, before its references are given up (R46). -/
def spoilt (e : Nat) (i : Image) : Image := { i with planes := i.planes.set e .lost, state := .damaged }

theorem markedDamaged_ims (slot e p : Nat) (s : State) : (markedDamaged slot (losePage slot e p s)).ims = { s.ims with
    retired := retireIn p s.ims.retired, images := tabMap slot (spoilt e) s.ims.images } := by
  show { (losePage slot e p s).ims with
    images := tabMap slot (fun i => { i with state := .damaged }) (losePage slot e p s).ims.images } = _
  rw [losePage_ims, tabMap_tabMap]
  rfl

theorem markedDamaged_ord (slot e p : Nat) (s : State) : (markedDamaged slot (losePage slot e p s)).ord = s.ord :=
  (losePage_frame slot e p s).ord rfl

/-- What a READY image's uncorrectable read does to ORD and IMS, with `n` QUEUED units that name the image (R9, R46). -/
theorem damagedRead_ready {slot e p : Nat} {j : Image} {s : State} (hw : tabWf s.ord.units = true)
    (hj : tabGet slot s.ims.images = some j) (hr : j.state = .ready) (hm : imageOf j.id s = some (slot, j)) :
    let t := damageImage slot (losePage slot e p s)
    t.ord = damagedOrd j.id s s.ord.units [] ∧ .image slot ∈ t.lnk.notices ∧
      t.ims = { s.ims with
        retired := retireIn p s.ims.retired
        images := tabMap slot (fun i => { spoilt e i with
          queuedRefs := i.queuedRefs - s.ord.units.countP fun q => queuedOn j.id s q.2 }) s.ims.images } := by
  intro t
  have lost : tabGet slot (losePage slot e p s).ims.images = some { j with planes := j.planes.set e .lost } := by
    rw [losePage_ims, tabGet_tabMap, if_pos rfl, hj]; rfl
  have ord := markedDamaged_ord slot e p s
  have found := imageOf_tabMap (f := spoilt e) (fun _ => rfl) (fun _ => rfl)
    (congrArg Ims.images (markedDamaged_ims slot e p s)) hm
  have report := imageDamagedReport_does (by rw [ord]; exact hw) found
  rw [← damageImage_ready lost hr] at report
  refine ⟨?_, report.notes.mem (mem_note _ _), ?_⟩
  · rw [report.ord, ord, damagedOrd_congr ord]
  · rw [report.ims, damagedIms, ord, markedDamaged_ims, tabMap_tabMap]
    rw [queuedOn_of_ord ord]
    rfl

section
variable {serial slot ch b e : Nat} {s : State} {k : Stroke} {i j : Image}

/-- `s` once the stroke has read band-plane (`ch`, `b`) (R129). -/
def afterRead (ch b : Nat) (k : Stroke) (s : State) : State :=
  { s with fdp := { s.fdp with stroke := some { k with read := k.read ++ [(ch, b)] } } }

/-- `u` with the stroke of `s` having read and lost band-plane (`ch`, `b`), and STORE_ECC on the garment (R46, R129). -/
def afterLoss (serial ch b : Nat) (k : Stroke) (s u : State) : State :=
  regarment serial (fun g => { g with defects := addTo .storeEcc g.defects })
    { u with fdp := { s.fdp with
      stroke := some { k with read := k.read ++ [(ch, b)], lost := k.lost ++ [(ch, b)] } } }

variable (hk : s.fdp.stroke = some k)
include hk

theorem withStroke_read :
    withStroke (fun k => { k with read := k.read ++ [(ch, b)] }) s = afterRead ch b k s := by
  simp [withStroke, State.withFdp, hk, afterRead]

omit hk in
theorem losePlane_afterRead {u : State} (hu : u.fdp = (afterRead ch b k s).fdp) :
    losePlane serial ch b u = afterLoss serial ch b k s u := by
  rw [losePlane, withStroke, State.withFdp, hu]
  rfl

variable (hj : tabGet slot s.ims.images = some j) (hp : planeIndex i.channels i.h ch b = some e)
include hj hp

theorem readPlane_blank (h : j.planes[e]? = some .blank) (reads : List ReadResult) :
    readPlane serial slot i ch b (s, reads) = (afterRead ch b k s, reads) := by
  simp only [readPlane, withStroke_read hk, hp]
  simp only [afterRead, hj, Option.map_some, Option.bind_some, h]

theorem readPlane_lost (h : j.planes[e]? = some .lost) (reads : List ReadResult) :
    readPlane serial slot i ch b (s, reads) = (afterLoss serial ch b k s s, reads) := by
  simp only [readPlane, withStroke_read hk, hp]
  simp only [show (afterRead ch b k s).ims = s.ims from rfl, hj, Option.map_some, Option.bind_some, h]
  rw [losePlane_afterRead rfl]
  rfl

section
variable {p : Nat} {sent : Bool} (h : j.planes[e]? = some (.page p sent)) {reads : List ReadResult}
include h

theorem readPlane_clean (hr : reads.headD .clean = .clean) :
    readPlane serial slot i ch b (s, reads) = (afterRead ch b k s, reads.tail) := by
  simp only [readPlane, withStroke_read hk, hp]
  simp only [show (afterRead ch b k s).ims = s.ims from rfl, hj, Option.map_some, Option.bind_some, h, hr]

theorem readPlane_corrected (hr : reads.headD .clean = .corrected) :
    readPlane serial slot i ch b (s, reads) = (countCorrected (afterRead ch b k s), reads.tail) := by
  simp only [readPlane, withStroke_read hk, hp]
  simp only [show (afterRead ch b k s).ims = s.ims from rfl, hj, Option.map_some, Option.bind_some, h, hr]

theorem readPlane_uncorrectable (hr : reads.headD .clean = .uncorrectable) :
    readPlane serial slot i ch b (s, reads) =
      (afterLoss serial ch b k s (damageImage slot (losePage slot e p (afterRead ch b k s))), reads.tail) := by
  simp only [readPlane, withStroke_read hk, hp]
  simp only [show (afterRead ch b k s).ims = s.ims from rfl, hj, Option.map_some, Option.bind_some, h, hr]
  rw [losePlane_afterRead (damagedRead_fdp _ _ _ _)]

end
end

/-! ### The obligation -/

/-- A state that differs from `s` in LNK, ORD, IMS and ALM alone. -/
theorem Touches.restored {s t : State} (h : Touches [.lnk, .ord, .ims, .alm] s t) :
    { t with lnk := s.lnk, ord := s.ord, ims := s.ims, alm := s.alm } = s := by
  obtain ⟨clock, pending, pins, -, -, -, prf, car, ptr, shf, fdp, ctc, exs, -⟩ := h
  cases s
  cases t
  simp_all

theorem damagedRead_frame (slot e p : Nat) (s : State) :
    Touches [.lnk, .ord, .ims, .alm] s (damageImage slot (losePage slot e p s)) :=
  .step (.step (.refl _ s) (losePage_frame slot e p s) rfl) (damageImage_frame slot _) rfl

theorem alarmed_alm_of {s t : State} (h : t.alm = s.alm) (i : Nat) (f : Alarm → Alarm) :
    (alarmed i f t).alm = (alarmed i f s).alm := by
  have record : ∀ u : State, (alarmed i f u).alm = { u.alm with alarms := u.alm.alarms.modify i f } := fun u => by
    unfold alarmed
    split <;> rfl
  rw [record, record, h]

/-- The image in `slot` and ORD after an uncorrectable read of a page of the image `j` (R9, R46). -/
theorem damagedRead_image {slot e p : Nat} {j : Image} {s : State} (hw : tabWf s.ord.units = true)
    (hj : tabGet slot s.ims.images = some j) (hm : imageOf j.id s = some (slot, j)) :
    let t := damageImage slot (losePage slot e p s)
    let named : Nat := if j.state = .ready then s.ord.units.countP fun q => queuedOn j.id s q.2 else 0
    tabGet slot t.ims.images = some { j with
      planes := j.planes.set e .lost, queuedRefs := j.queuedRefs - named
      state := if j.state = .ready then .damaged else j.state } ∧
    (∀ q, q ≠ slot → tabGet q t.ims.images = tabGet q s.ims.images) ∧
    (∀ m, m ∈ t.ims.retired ↔ m ∈ s.ims.retired ∨ m = p) ∧
    (j.state = .ready → t.ord = damagedOrd j.id s s.ord.units [] ∧ .image slot ∈ t.lnk.notices) ∧
    (j.state ≠ .ready → t.ord = s.ord) ∧ t.ims.store = s.ims.store := by
  intro t named
  have store : t.ims.store = s.ims.store := by
    rw [damageImage_store, losePage_ims]
  by_cases hr : j.state = .ready
  · obtain ⟨ord, notice, ims⟩ := damagedRead_ready (e := e) (p := p) hw hj hr hm
    refine ⟨?_, fun q hq => ?_, fun m => ?_, fun _ => ⟨ord, notice⟩, fun h => absurd hr h, store⟩
    · rw [ims, tabGet_tabMap, if_pos rfl, hj, if_pos hr]
      simp only [named, if_pos hr]
      rfl
    · rw [ims, tabGet_tabMap, if_neg hq]
    · rw [ims, mem_retireIn]
  · have same : t = losePage slot e p s := by
      refine damageImage_not_ready (i := { j with planes := j.planes.set e .lost }) ?_ hr
      rw [losePage_ims, tabGet_tabMap, if_pos rfl, hj]
      rfl
    refine ⟨?_, fun q hq => ?_, fun m => ?_, fun h => absurd h hr, fun _ => ?_, store⟩
    · rw [same, losePage_ims, tabGet_tabMap, if_pos rfl, hj, if_neg hr]
      simp only [named, if_neg hr]
      rfl
    · rw [same, losePage_ims, tabGet_tabMap, if_neg hq]
    · rw [same, losePage_ims, mem_retireIn]
    · rw [same]
      exact (losePage_frame _ _ _ _).ord rfl

/-- Settles O55: the firing rows, the line sent, the demand of image and mark, and the reads with their results. -/
theorem lineComposition : Obligations.LineComposition := by
  refine ⟨fun map demands ch n x base hb => ?_, fun serial stroke n s g k hg hk => ?_,
    fun g k i ch n x s hc => ?_, fun g k img n x s bits hb => demand_mark hb g img n x s,
    fun serial stroke n slot id reads s g k i hg hk => ?_,
    fun serial slot ch b e reads s k i j keyed _ hk hc hb he hj => ?_,
    fun p lineId serial i j dx dy hl hs hi hj hx hy => ?_⟩
  · subst hb
    exact ⟨fun h => firedBy_base h demands, fun h h' => firedBy_other h h' demands,
      fun h h' => firedBy_uncovered h h' demands⟩
  · simpa only [channelLost_eq, nozzleNumber_eq, drivenChannels_eq] using composeLine_fires (stroke := stroke) (n := n) hg hk
  · have plain : ch ≠ 4 ∨ k.mark = none := hc.imp (fun h => by omega) And.right
    rw [demand_none plain, demand_some plain]
    refine ⟨rfl, ?_, fun e hy hh hx hw declared he => ⟨fun noPage => ?_, fun p sent page => ?_⟩⟩
    · rintro (h | h | h | h | h)
      · rw [rowBytes_outside (.inl h), rowDemand_nil]
      · rw [rowBytes_outside (.inr h), rowDemand_nil]
      · exact rowDemand_outside (.inl h) _
      · exact rowDemand_outside (.inr h) _
      · rw [rowBytes_undeclared h, rowDemand_nil]
    · rw [rowBytes_noPage hy hh declared he noPage, rowDemand_nil]
    · rw [rowBytes_page hy hh declared he page, rowDemand_inside hx hw]
  · refine ⟨fun hi => readBands_noImage hg hi reads, fun hi hm =>
      ⟨fun h => readBands_outside hg hi hm h reads, fun hy hh => ?_⟩⟩
    rw [readBands_inside hg hi hm hy hh, planesRead_of hk]
    rfl
  · subst he
    have index := planeIndex_some hc hb
    refine ⟨fun h => readPlane_blank hk hj index h reads, fun h => readPlane_lost hk hj index h reads,
      fun p sent h => ⟨fun hr => readPlane_clean hk hj index h hr, fun hr => readPlane_corrected hk hj index h hr,
        fun hr hm => ?_⟩⟩
    obtain ⟨-, units, -⟩ := keyed
    obtain ⟨image, others, retired, ready, notReady, store⟩ :=
      damagedRead_image (e := (channelsIn i.channels).idxOf ch * ((i.h + 47) / 48) + b) (p := p)
        (s := afterRead ch b k s) units hj hm
    refine ⟨{ damageImage slot (losePage slot _ p (afterRead ch b k s)) with fdp := s.fdp },
      readPlane_uncorrectable hk hj index h hr, image, others, retired, ?_,
      fun r => ⟨unitsFollow_damaged units (ready r).1, (ready r).2⟩, notReady, store, ?_⟩
    · calc (damageImage slot (losePage slot _ p (afterRead ch b k s))).alm
        _ = (losePage slot _ p (afterRead ch b k s)).alm := (damageImage_frame slot _).alm rfl
        _ = (alarmed 17 Alarm.passed (afterRead ch b k s)).alm := losePage_alm _ _ _ _
        _ = (alarmed 17 Alarm.passed s).alm := alarmed_alm_of (s := s) (t := afterRead ch b k s) rfl _ _
    · exact congrArg (fun t => { t with fdp := s.fdp }) (damagedRead_frame slot _ p (afterRead ch b k s)).restored
  · rw [markDemand_cell p _ hi hj hx hy, markBits_getMsbD hl hs (by omega)]

end Sys2Proof.Machine
end

section
/-!
SUPPORT and O34. How `applySetting` stores one line setting (R55, R56, R230).
-/

namespace Sys2Proof.Machine

/-! ### Clamping -/

theorem clamp_eq {lo hi : Nat} (h : lo ≤ hi) (n : Nat) : clamp lo hi n = max lo (min n hi) := by
  unfold clamp
  split
  · omega
  · split <;> omega

theorem clamp_zero (hi n : Nat) : clamp 0 hi n = min n hi := by
  rw [clamp_eq (Nat.zero_le hi), Nat.zero_max]

/-- A range changes a number exactly where the number lies outside it. -/
theorem clamp_ne {lo hi : Nat} (h : lo ≤ hi) (n : Nat) : (clamp lo hi n != n) = decide (n < lo ∨ hi < n) := by
  rw [clamp_eq h, Bool.eq_iff_iff, bne_iff_ne, decide_eq_true_eq]
  omega

/-! ### The kinds of settings -/

section
variable {c k lo hi : Nat} {store : Nat → LineSettings → LineSettings}

/-- A numeric setting takes its value, clamped to its range. -/
theorem applySetting_numeric (h : numericSetting c = some (lo, hi, store)) (hr : lo ≤ hi) (v : Nat) (l : LineSettings) :
    applySetting { code := c, index := 0, value := v } l =
      some (store (max lo (min v hi)) l, decide (v < lo ∨ hi < v)) := by
  have hc : c ≠ 0x0D := by rintro rfl; cases h
  rw [← clamp_eq hr, ← clamp_ne hr]
  simp [applySetting, hc, h]

theorem applySetting_numeric_index (h : numericSetting c = some (lo, hi, store)) (hk : k ≠ 0) (v : Nat)
    (l : LineSettings) : applySetting { code := c, index := k, value := v } l = none := by
  have hc : c ≠ 0x0D := by rintro rfl; cases h
  simp [applySetting, hc, h, hk]

/-- The same for a range that begins at 0, which clamps from above alone. -/
theorem applySetting_upTo (h : numericSetting c = some (0, hi, store)) (v : Nat) (l : LineSettings) :
    applySetting { code := c, index := 0, value := v } l = some (store (min v hi) l, decide (hi < v)) := by
  rw [applySetting_numeric h (Nat.zero_le hi)]
  simp

/-- Any other setting but a lane delay takes a value of its table alone. -/
theorem applySetting_enum (h : numericSetting c = none) (hc : c ≠ 0x0D) (v : Nat) (l : LineSettings) :
    applySetting { code := c, index := k, value := v } l =
      (enumSetting { code := c, index := k, value := v } l).map fun l => (l, false) := by
  simp [applySetting, hc, h]

end

/-- A lane delay takes its value, clamped to its range. -/
theorem applySetting_laneDelay {k : Nat} (hk : k < 8) (v : Nat) (l : LineSettings) :
    applySetting { code := 0x0D, index := k, value := v } l =
      some ({ l with laneDelays := l.laneDelays.set k (min v 255) }, decide (255 < v)) := by
  simp [applySetting, hk, clamp_zero, min_ne_iff]

/-! ### The tables of values -/

theorem flagOf_eq (v : Nat) : flagOf v = [false, true][v]? := by
  match v with
  | 0 | 1 | _ + 2 => rfl

theorem senseOf_eq (v : Nat) : senseOf v = [Sense.edge, .edgeLevel][v]? := by
  match v with
  | 0 | 1 | _ + 2 => rfl

theorem lossRuleOf_eq (v : Nat) : lossRuleOf v = [LossRule.twoOfFour, .twoOfFive][v]? := by
  match v with
  | 0 | 1 | _ + 2 => rfl

theorem reserveOf_eq (v : Nat) : reserveOf v = [Reserve.zero, .sixteenth, .eighth, .quarter, .half][v]? := by
  match v with
  | 0 | 1 | 2 | 3 | 4 | _ + 5 => rfl

/-- The 24 modules of channel `c` take the mask, bits 24 to 31 are not read, and the other channels keep theirs. -/
theorem getLsbD_setExempt (exempt : BitVec 120) (c v : Nat) {m : Nat} (hm : m < 120) :
    (setExempt exempt c v).getLsbD m = if m / 24 = c then v.testBit (m % 24) else exempt.getLsbD m := by
  have mask : (0xFFFFFF#120).getLsbD (m - 24 * c) = decide (m - 24 * c < 24) := by
    have ones : (0xFFFFFF : Nat).testBit (m - 24 * c) = decide (m - 24 * c < 24) :=
      Nat.testBit_two_pow_sub_one 24 (m - 24 * c)
    rw [BitVec.getLsbD_ofNat, ones, decide_eq_true (show m - 24 * c < 120 by omega), Bool.true_and]
  have value : (BitVec.ofNat 120 (v % 2 ^ 24)).getLsbD (m - 24 * c) =
      (decide (m - 24 * c < 24) && v.testBit (m - 24 * c)) := by
    rw [BitVec.getLsbD_ofNat, Nat.testBit_mod_two_pow, decide_eq_true (show m - 24 * c < 120 by omega), Bool.true_and]
  simp only [setExempt, BitVec.getLsbD_or, BitVec.getLsbD_and, BitVec.getLsbD_not, BitVec.getLsbD_shiftLeft, mask,
    value, hm, decide_true, Bool.true_and]
  by_cases below : m < 24 * c
  · rw [if_neg (by omega)]
    simp [below]
  · by_cases inside : m - 24 * c < 24
    · rw [if_pos (by omega), show m % 24 = m - 24 * c by omega]
      simp [below, inside]
    · rw [if_neg (by omega)]
      simp [below, inside]

/-! ### What is refused -/

/-- A setting that is no list has the index 0 alone. -/
theorem enumSetting_index {c k : Nat} (hc : c ∉ [0x0A, 0x0D, 0x14, 0x15]) (hk : k ≠ 0) (v : Nat) (l : LineSettings) :
    enumSetting { code := c, index := k, value := v } l = none := by
  unfold enumSetting
  split <;> simp_all

theorem numericSetting_unknown {c : Nat} (h : c = 0 ∨ 0x16 < c) : numericSetting c = none := by
  obtain rfl | ⟨n, rfl⟩ : c = 0 ∨ ∃ n, c = n + 0x17 := h.imp_right fun h => ⟨c - 0x17, by omega⟩
  · rfl
  · rfl

theorem enumSetting_unknown {c : Nat} (h : c = 0 ∨ 0x16 < c) (k v : Nat) (l : LineSettings) :
    enumSetting { code := c, index := k, value := v } l = none := by
  obtain rfl | ⟨n, rfl⟩ : c = 0 ∨ ∃ n, c = n + 0x17 := h.imp_right fun h => ⟨c - 0x17, by omega⟩
  · rfl
  · rfl

theorem applySetting_unknown {c : Nat} (h : c = 0 ∨ 0x16 < c) (k v : Nat) (l : LineSettings) :
    applySetting { code := c, index := k, value := v } l = none := by
  rw [applySetting_enum (numericSetting_unknown h) (by omega), enumSetting_unknown h]
  rfl

theorem applySetting_index {c k : Nat} (hc : c ∉ [0x0A, 0x0D, 0x14, 0x15]) (hk : k ≠ 0) (v : Nat) (l : LineSettings) :
    applySetting { code := c, index := k, value := v } l = none := by
  cases h : numericSetting c with
  | some p => exact applySetting_numeric_index (lo := p.1) (hi := p.2.1) (store := p.2.2) h hk v l
  | none =>
    rw [applySetting_enum h (by rintro rfl; simp at hc), enumSetting_index hc hk]
    rfl

/-- An unknown code, and an index that the setting does not have (R57 check 1). -/
theorem applySetting_refused {c k : Nat} (h : c = 0 ∨ 0x16 < c ∨ (c = 0x0A ∧ 5 ≤ k) ∨ (c = 0x0D ∧ 8 ≤ k) ∨
    (c = 0x14 ∧ (k = 0 ∨ 14 < k)) ∨ (c = 0x15 ∧ 22 ≤ k) ∨ (c ∉ [0x0A, 0x0D, 0x14, 0x15] ∧ k ≠ 0)) (v : Nat)
    (l : LineSettings) : applySetting { code := c, index := k, value := v } l = none := by
  rcases h with h | h | ⟨rfl, h⟩ | ⟨rfl, h⟩ | ⟨rfl, h⟩ | ⟨rfl, h⟩ | ⟨hc, hk⟩
  · exact applySetting_unknown (.inl h) k v l
  · exact applySetting_unknown (.inr h) k v l
  · rw [applySetting_enum rfl (by decide)]
    simp [enumSetting, Nat.not_lt.mpr h]
  · simp [applySetting, Nat.not_lt.mpr h]
  · rw [applySetting_enum rfl (by decide)]
    simp only [enumSetting]
    rw [if_neg (by omega)]
    rfl
  · rw [applySetting_enum rfl (by decide)]
    simp [enumSetting, Nat.not_lt.mpr h]
  · exact applySetting_index hc hk v l

/-- Settles O34: code by code, through what `applySetting` does with a numeric setting, a lane delay and a table. -/
theorem settingRanges : Obligations.SettingRanges := by
  intro l v
  refine ⟨(applySetting_upTo (c := 0x01) rfl v l :), (applySetting_upTo (c := 0x02) rfl v l :),
    (applySetting_upTo (c := 0x03) rfl v l :), (applySetting_upTo (c := 0x06) rfl v l :),
    (applySetting_numeric (c := 0x08) rfl (by decide) v l :),
    (applySetting_numeric (c := 0x09) rfl (by decide) v l :),
    (applySetting_numeric (c := 0x0B) rfl (by decide) v l :), (applySetting_upTo (c := 0x0C) rfl v l :),
    fun k hk => applySetting_laneDelay hk v l, (applySetting_numeric (c := 0x0E) rfl (by decide) v l :),
    (applySetting_numeric (c := 0x0F) rfl (by decide) v l :), (applySetting_upTo (c := 0x10) rfl v l :),
    (applySetting_numeric (c := 0x11) rfl (by decide) v l :), (applySetting_upTo (c := 0x12) rfl v l :),
    fun c hc => ?exempt, ?reserve, ?loss, ?resync, ?guards, fun k h1 h14 => ?senses, fun k hk => ?masks, ?lock,
    fun c k h => applySetting_refused h v l⟩
  case exempt =>
    refine ⟨setExempt l.exempt c v, ?_, fun m hm => getLsbD_setExempt l.exempt c v hm⟩
    rw [applySetting_enum rfl (by decide)]
    simp [enumSetting, hc]
  all_goals rw [applySetting_enum rfl (by decide)]
  case guards =>
    simp only [enumSetting, true_and]
    split <;> rfl
  case senses =>
    simp only [enumSetting, h1, h14, true_and, senseOf_eq]
    by_cases hs : k = 1 ∧ v = 0
    · obtain ⟨rfl, rfl⟩ := hs
      rfl
    · rw [if_pos (by tauto), if_neg hs, Option.map_map]
      rfl
  all_goals simp [enumSetting, flagOf_eq, lossRuleOf_eq, reserveOf_eq, Function.comp_def, *]

end Sys2Proof.Machine
end

section
/-!
SUPPORT, O21 and O36. What PRF answers to PROFILE_GET (R54) and decides on PROFILE_SET (R51, R52).
-/

namespace Sys2Proof.Machine

theorem exec_profileGet {s : State} (hs : Reads s) (tag : Byte) (id : Nat) :
    exec (.profileGet tag id) s = .next (take 0x13 tag (decideProfileGet id) s) :=
  congrArg _ (deliver_reads hs _)

/-- Settles O21: the table holds the profiles 0 to 15, and the answer is the entry's bytes. -/
theorem profileGetAnswers : Obligations.ProfileGetAnswers := by
  intro tag id s hs shaped
  obtain ⟨profiles, -⟩ := shaped
  rw [exec_profileGet hs]
  refine ⟨fun h => ?_, by omega, fun h => ?_⟩
  · have entry : decideProfileGet id s = answer (profileBytes s.prf.profiles[id]) s := by
      simp [decideProfileGet, List.getElem?_eq_getElem h]
    rw [take_replied hs (by rw [entry]; rfl) (by rw [entry]; exact .inr (.inl rfl)), entry]
    rfl
  · have beyond : decideProfileGet id s = refuse .range s := by
      simp [decideProfileGet, profiles, Nat.not_lt.mpr h]
    rw [take_refused hs beyond rfl]

/-! ### PROFILE_SET -/

/-- A flag that says that two values differ, as a decision. -/
theorem bne_decide {α : Type} [BEq α] [LawfulBEq α] [DecidableEq α] (a b : α) : (a != b) = decide (a ≠ b) := by
  rw [Bool.eq_iff_iff, bne_iff_ne, decide_eq_true_eq]

theorem exec_profileSet {s : State} (hs : Reads s) (tag : Byte) (key : Bool) (id : Nat) (b : ProfileBody) :
    exec (.profileSet tag key id b) s = .next (take 0x12 tag (decideProfile key id b) s) :=
  congrArg _ (deliver_reads hs _)

theorem clampProfile_eq (b : ProfileBody) : clampProfile b = clampedProfile b := by
  simp [clampProfile, clampedProfile, clamp_eq]

theorem basisOf_code (basis : Basis) : basisOf basis.code = some basis := by
  cases basis <;> rfl

theorem basisOf_none {n : Nat} (h : 3 ≤ n) : basisOf n = none := by
  match n, h with
  | n + 3, _ => rfl

section
variable {key : Bool} {id : Nat} {b : ProfileBody} {s : State}

/-- The lock is on and KEY is low (R52). -/
theorem decideProfile_locked (hl : s.prf.line.lock = true) (hk : key = false) :
    decideProfile key id b s = refuse .locked (keyed key s) := by
  simp [decideProfile, hl, hk]
  rfl

theorem decideProfile_unlocked (hl : s.prf.line.lock = true → key = true) : decideProfile key id b s =
    if 16 ≤ id then refuse .range (keyed key s)
    else match basisOf b.basis, flagOf b.markOn with
      | some basis, some markOn =>
        if (clampedProfile b).tMax < (clampedProfile b).tMin ∨ (clampedProfile b).tfMax < (clampedProfile b).tfMin then
          refuse .range (keyed key s)
        else accept (clampedProfile b != b) ((keyed key s).withPrf fun p =>
          { p with profiles := p.profiles.set id (profileFrom (clampedProfile b) basis markOn) })
      | _, _ => refuse .range (keyed key s) := by
  have free : (s.prf.line.lock && !key) = false := by
    cases h : s.prf.line.lock with
    | false => rfl
    | true => rw [hl h]; rfl
  simp only [decideProfile, State.withPins_prf, free, clampProfile_eq]
  rfl

/-- The checks of R51 after the lock: the id, the two tables of values, and the pairs after the clamps. -/
theorem decideProfile_range (hl : s.prf.line.lock = true → key = true)
    (h : 15 < id ∨ 3 ≤ b.basis ∨ 2 ≤ b.markOn ∨ (clampedProfile b).tMax < (clampedProfile b).tMin ∨
      (clampedProfile b).tfMax < (clampedProfile b).tfMin) :
    decideProfile key id b s = refuse .range (keyed key s) := by
  rw [decideProfile_unlocked hl]
  split
  · rfl
  · split
    next basis on hb hm =>
      refine if_pos ?_
      rcases h with h | h | h | h
      · omega
      · rw [basisOf_none h] at hb; cases hb
      · rw [flagOf_none h] at hm; cases hm
      · exact h
    · rfl

theorem decideProfile_stored (hl : s.prf.line.lock = true → key = true) {basis : Basis} (hid : id ≤ 15)
    (hm : b.markOn < 2) (hb : b.basis = basis.code) (ht : (clampedProfile b).tMin ≤ (clampedProfile b).tMax)
    (hf : (clampedProfile b).tfMin ≤ (clampedProfile b).tfMax) :
    decideProfile key id b s = accept (clampedProfile b != b) ((keyed key s).withPrf fun p =>
      { p with profiles := p.profiles.set id (profileFrom (clampedProfile b) basis (b.markOn == 1)) }) := by
  rw [decideProfile_unlocked hl, if_neg (by omega), hb, basisOf_code, flagOf_some hm]
  exact if_neg (by omega)

end

/-- Settles O36: the checks in their order, and the clamped profile stored. -/
theorem profileSet : Obligations.ProfileSet := by
  intro tag key id b s hs u c
  rw [exec_profileSet hs]
  refine ⟨fun hl hk => ?_, fun hl => ⟨fun h => ?_, fun basis hid hm hb ht hf => ?_⟩⟩
  · rw [take_refused hs (decideProfile_locked hl hk) rfl]; rfl
  · rw [take_refused hs (decideProfile_range (key := key) hl h) rfl]; rfl
  · rw [take_accepted hs (decideProfile_stored (key := key) hl hid hm hb ht hf) rfl, bne_decide]
    rfl

end Sys2Proof.Machine
end

section
/-!
SUPPORT and O37. The range of the selected speed (R156), and what PRF decides on CURE_SET and SPIT_SET (R60 to R62).
-/

namespace Sys2Proof.Machine

/-! ### The selected speed -/

theorem leastHi_le (top : Nat) (ps : List Pair) : leastHi top ps ≤ top := by
  unfold leastHi
  induction ps generalizing top with
  | nil => exact Nat.le_refl top
  | cons p ps ih =>
    rw [List.foldl_cons]
    refine (ih _).trans ?_
    cases p.hi with
    | none => exact Nat.le_refl top
    | some h => exact Nat.min_le_left top h

theorem le_selectSpeed (s : State) : s.prf.cure.sMin ≤ selectSpeed s := Nat.le_max_left _ _

theorem selectSpeed_le {s : State} (h : s.prf.cure.sMin ≤ s.prf.cure.sMax) : selectSpeed s ≤ s.prf.cure.sMax :=
  Nat.max_le.mpr ⟨h, leastHi_le _ _⟩

/-- With no garment on the belt and no entrant nothing bounds the speed but its range. -/
theorem selectSpeed_empty {s : State} (h : s.prf.cure.sMin ≤ s.prf.cure.sMax) (ht : s.ctc.tunnel = [])
    (he : s.ctc.entrant = none) : selectSpeed s = s.prf.cure.sMax := by
  simp [selectSpeed, memberPairs, entrantPairs, ht, he, leastHi, h]

/-! ### CURE_SET -/

theorem exec_cureSet {s : State} (hs : Reads s) (tag : Byte) (b : CureBody) :
    exec (.cureSet tag b) s = .next (take 0x14 tag (decideCure b) s) :=
  congrArg _ (deliver_reads hs _)

theorem clampCure_eq (b : CureBody) : clampCure b = clampedCure b := by
  simp [clampCure, clampedCure, clamp_eq]

theorem decideCure_eq (b : CureBody) (s : State) : decideCure b s =
    if (clampedCure b).dMax < (clampedCure b).dMin ∨ (clampedCure b).sMax < (clampedCure b).sMin ∨
        (clampedCure b).tTrip ≤ (clampedCure b).tSet1 ∨ (clampedCure b).tTrip ≤ (clampedCure b).tSet2 ∨
        (clampedCure b).tTrip ≤ (clampedCure b).tSet3 then refuse .range s
    else accept (clampedCure b != b)
      (recomputeSpeed (s.withPrf fun p => { p with cure := cureFrom (clampedCure b) })) := by
  rw [← clampCure_eq]
  rfl

/-! ### SPIT_SET -/

theorem exec_spitSet {s : State} (hs : Reads s) (tag : Byte) (b : SpitBody) :
    exec (.spitSet tag b) s = .next (take 0x15 tag (decideSpit b) s) :=
  congrArg _ (deliver_reads hs _)

theorem decideSpit_eq (b : SpitBody) (s : State) : decideSpit b s =
    let period := max 1 (min b.period 16)
    let counts := b.counts.map fun n => min n 255
    accept (decide (period ≠ b.period ∨ counts ≠ b.counts)) { s with
      prf := { s.prf with spit := { period := period, masks := b.masks.map (BitVec.ofNat 16), counts := counts } }
      fdp := { s.fdp with spitCounter := if period = s.prf.spit.period then s.fdp.spitCounter else 0 } } := by
  have period : clamp 1 16 b.period = max 1 (min b.period 16) := clamp_eq (by decide) _
  have counts : clamp 0 255 = fun n => min n 255 := funext (clamp_zero 255)
  simp only [decideSpit, period, counts, bne_decide, Bool.decide_or]
  split <;> rfl

/-- Settles O37: the checks on the clamped body, the speed selected with the new settings, and the spit counter. -/
theorem cureAndSpitSet : Obligations.CureAndSpitSet := by
  refine ⟨fun tag b s hs => ?_, fun tag b s hs => ?_⟩
  · intro c
    rw [exec_cureSet hs]
    refine ⟨fun h => ?_, fun hd hr h1 h2 h3 => ?_⟩
    · rw [take_refused hs ((decideCure_eq b s).trans (if_pos h)) rfl]
    · intro u
      have stored : decideCure b s = accept (c != b) (recomputeSpeed u) :=
        (decideCure_eq b s).trans (if_neg (by simp only [c] at *; omega))
      refine ⟨?_, le_selectSpeed u, selectSpeed_le (s := u) hr, selectSpeed_empty (s := u) hr⟩
      rw [take_accepted hs stored rfl, bne_decide]
      rfl
  · rw [exec_spitSet hs, take_accepted hs (decideSpit_eq b s) rfl]

end Sys2Proof.Machine
end

section
/-!
SUPPORT. The nozzle map under every operation: no operation but NOZZLE_SET (R126) and power-on (R125) changes it.
-/

namespace Sys2Proof.Machine

/-! ### FDP and SHF: the print -/

theorem foldlPair_nozzles {β γ : Type} {f : State × γ → β → State × γ}
    (h : ∀ a b, (f a b).1.fdp.nozzles = a.1.fdp.nozzles) (l : List β) (p : State × γ) :
    (l.foldl f p).1.fdp.nozzles = p.1.fdp.nozzles := by
  induction l generalizing p with
  | nil => rfl
  | cons b l ih => exact (ih _).trans (h p b)

@[simp] theorem setPrintActive_fdp (serial : Nat) (on : Bool) (s : State) : (setPrintActive serial on s).fdp = s.fdp :=
  (setPrintActive_frame _ _ _).fdp rfl
@[simp] theorem decideDefects_fdp (serial : Nat) (s : State) : (decideDefects serial s).fdp = s.fdp :=
  (decideDefects_frame _ _).fdp rfl
@[simp] theorem moveShuttle_fdp (motion : Shuttle) (s : State) : (moveShuttle motion s).fdp = s.fdp :=
  (moveShuttle_frame _ _).fdp rfl
@[simp] theorem writeRecord_fdp (serial : Nat) (aborted : Bool) (s : State) :
    (writeRecord serial aborted s).fdp = s.fdp :=
  (writeRecord_frame _ _ _).fdp rfl
@[simp] theorem addDefect_fdp (serial : Nat) (d : Defect) (s : State) : (addDefect serial d s).fdp = s.fdp :=
  (addDefect_frame _ _ _).fdp rfl
@[simp] theorem finishPrint_fdp (serial : Nat) (s : State) : (finishPrint serial s).fdp = s.fdp :=
  (finishPrint_frame _ _).fdp rfl
@[simp] theorem stopShuttle_fdp (s : State) : (stopShuttle s).fdp = s.fdp :=
  (stopShuttle_frame _).fdp rfl
@[simp] theorem setHold_fdp (st : Station) (h : Hold) (s : State) : (setHold st h s).fdp = s.fdp :=
  (setHold_frame _ _ _).fdp rfl
@[simp] theorem onset_fdp (i : Nat) (momentary : Bool) (s : State) : (onset i momentary s).fdp = s.fdp :=
  (onset_frame _ _ _).fdp rfl
@[simp] theorem countCorrected_fdp (s : State) : (countCorrected s).fdp = s.fdp :=
  (countCorrected_frame _).fdp rfl
@[simp] theorem damageImage_fdp (slot : Nat) (s : State) : (damageImage slot s).fdp = s.fdp :=
  (damageImage_frame _ _).fdp rfl
@[simp] theorem losePage_fdp (slot k n : Nat) (s : State) : (losePage slot k n s).fdp = s.fdp :=
  (losePage_frame _ _ _ _).fdp rfl

@[simp] theorem withStroke_nozzles (f : Stroke → Stroke) (s : State) :
    (withStroke f s).fdp.nozzles = s.fdp.nozzles := rfl

@[simp] theorem dropStrokeState_nozzles (s : State) : (dropStrokeState s).fdp.nozzles = s.fdp.nozzles := rfl

@[simp] theorem clearHead_nozzles (s : State) : (clearHead s).fdp.nozzles = s.fdp.nozzles := rfl

@[simp] theorem startStrokeState_nozzles (stroke serial : Nat) (s : State) :
    (startStrokeState stroke serial s).fdp.nozzles = s.fdp.nozzles := rfl

@[simp] theorem losePlane_nozzles (serial ch b : Nat) (s : State) :
    (losePlane serial ch b s).fdp.nozzles = s.fdp.nozzles := by
  simp [losePlane]

@[simp] theorem startStroke_nozzles (s : State) : (startStroke s).fdp.nozzles = s.fdp.nozzles := by
  unfold startStroke
  split <;> simp

@[simp] theorem completeSpit_nozzles (s : State) : (completeSpit s).fdp.nozzles = s.fdp.nozzles := by
  unfold completeSpit
  split <;> simp

@[simp] theorem startPrint_nozzles (s : State) : (startPrint s).fdp.nozzles = s.fdp.nozzles :=
  (startPrint_keepsPlan s).2.1

@[simp] theorem readPlane_nozzles (serial slot : Nat) (i : Image) (ch b : Nat) (p : State × List ReadResult) :
    (readPlane serial slot i ch b p).1.fdp.nozzles = p.1.fdp.nozzles := by
  unfold readPlane
  dsimp only
  repeat' split
  all_goals simp

@[simp] theorem readBands_nozzles (serial stroke n : Nat) (p : State × List ReadResult) :
    (readBands serial stroke n p).1.fdp.nozzles = p.1.fdp.nozzles := by
  unfold readBands
  split
  · rfl
  · split
    · rfl
    · split
      · rfl
      · exact foldlPair_nozzles (fun q ch => by split <;> simp) _ p

@[simp] theorem composeLine_nozzles (serial stroke n : Nat) (s : State) :
    (composeLine serial stroke n s).fdp.nozzles = s.fdp.nozzles := by
  unfold composeLine
  split <;> rfl

@[simp] theorem restLine_nozzles (s : State) : (restLine s).fdp.nozzles = s.fdp.nozzles := rfl

@[simp] theorem lineEvent_nozzles (n : Nat) (p : State × List ReadResult) :
    (lineEvent n p).1.fdp.nozzles = p.1.fdp.nozzles := by
  unfold lineEvent
  dsimp only
  repeat' split
  all_goals simp

@[simp] theorem endStroke_nozzles (s : State) : (endStroke s).fdp.nozzles = s.fdp.nozzles := by
  unfold endStroke
  dsimp only
  repeat' split
  all_goals simp

@[simp] theorem advanceStroke_nozzles (reads : List ReadResult) (s : State) :
    (advanceStroke reads s).fdp.nozzles = s.fdp.nozzles := by
  unfold advanceStroke
  dsimp only
  split
  all_goals
    simp only [endStroke_nozzles, State.withShf_fdp]
    refine (foldlPair_nozzles (fun p count => ?_) _ _).trans (clearHead_nozzles s)
    split
    · split <;> simp
    · rfl

@[simp] theorem encoderCount_nozzles (forward : Bool) (reads : List ReadResult) (s : State) :
    (encoderCount forward reads s).fdp.nozzles = s.fdp.nozzles := by
  unfold encoderCount
  dsimp only
  repeat' split
  all_goals simp

@[simp] theorem scaleMarkReport_nozzles (reads : List ReadResult) (s : State) :
    (scaleMarkReport reads s).fdp.nozzles = s.fdp.nozzles := by
  unfold scaleMarkReport
  repeat' split
  all_goals simp

@[simp] theorem arriveHome_nozzles (s : State) : (arriveHome s).fdp.nozzles = s.fdp.nozzles := by
  unfold arriveHome
  dsimp only
  repeat' split
  all_goals simp

@[simp] theorem homeReport_nozzles (s : State) : (homeReport s).fdp.nozzles = s.fdp.nozzles := by
  unfold homeReport
  dsimp only
  split <;> simp

@[simp] theorem abortPrint_nozzles (s : State) : (abortPrint s).fdp.nozzles = s.fdp.nozzles := by
  obtain ⟨-, -, nozzles, -⟩ := abortPrint_does s
  exact nozzles

@[simp] theorem loseSignal_nozzles (s : State) : (loseSignal s).fdp.nozzles = s.fdp.nozzles := by
  unfold loseSignal
  dsimp only
  repeat' split
  all_goals simp

/-! ### The line -/

@[simp] theorem endDrill_fdp (s : State) : (endDrill s).fdp = s.fdp :=
  (endDrill_frame _).fdp rfl
@[simp] theorem haltPretreat_fdp (s : State) : (haltPretreat s).fdp = s.fdp :=
  (haltPretreat_frame _).fdp rfl
@[simp] theorem haltFlash_fdp (s : State) : (haltFlash s).fdp = s.fdp :=
  (haltFlash_frame _).fdp rfl
@[simp] theorem pauseIndex_fdp (s : State) : (pauseIndex s).fdp = s.fdp :=
  (pauseIndex_frame _).fdp rfl
@[simp] theorem setLine_fdp (l : LineState) (s : State) : (setLine l s).fdp = s.fdp :=
  (setLine_frame _ _).fdp rfl

@[simp] theorem haltPrint_nozzles (s : State) : (haltPrint s).fdp.nozzles = s.fdp.nozzles := by
  obtain ⟨-, -, nozzles, -⟩ := haltPrint_does s
  exact nozzles

@[simp] theorem enterHalted_nozzles (s : State) : (enterHalted s).fdp.nozzles = s.fdp.nozzles := by
  unfold enterHalted
  split <;> simp

@[simp] theorem haltOnset_nozzles (i : Nat) (s : State) : (haltOnset i s).fdp.nozzles = s.fdp.nozzles := by
  simp [haltOnset]

@[simp] theorem advance_nozzles (s : State) : (advance s).fdp.nozzles = s.fdp.nozzles := (advance_onward s).1.nozzles

@[simp] theorem settle_nozzles (s : State) : (settle s).fdp.nozzles = s.fdp.nozzles := (settle_onward s).nozzles

@[simp] theorem indexExpired_nozzles (s : State) : (indexExpired s).fdp.nozzles = s.fdp.nozzles := by
  unfold indexExpired
  split <;> simp

@[simp] theorem stallBelt_nozzles (s : State) : (stallBelt s).fdp.nozzles = s.fdp.nozzles := by
  unfold stallBelt
  split <;> simp

@[simp] theorem readEstop_nozzles (active : Bool) (s : State) : (readEstop active s).fdp.nozzles = s.fdp.nozzles := by
  unfold readEstop
  dsimp only
  split <;> simp

@[simp] theorem firstReading_nozzles (s : State) : (firstReading s).fdp.nozzles = s.fdp.nozzles := by
  simp [firstReading]

/-! ### The requests -/

@[simp] theorem clearAll_nozzles (s : State) : (clearAll s).fdp.nozzles = s.fdp.nozzles := by
  simp [clearAll]

@[simp] theorem decideReset_nozzles (s : State) : (decideReset s).state.fdp.nozzles = s.fdp.nozzles := by
  unfold decideReset
  repeat' split
  all_goals simp

@[simp] theorem storeSettings_nozzles (l : LineSettings) (s : State) :
    (storeSettings l s).fdp.nozzles = s.fdp.nozzles := by
  unfold storeSettings
  dsimp only
  repeat' split
  all_goals simp

@[simp] theorem decideConfig_nozzles (key : Bool) (es : List SettingEntry) (s : State) :
    (decideConfig key es s).state.fdp.nozzles = s.fdp.nozzles := by
  unfold decideConfig
  dsimp only
  repeat' split
  all_goals simp

@[simp] theorem decideSpit_nozzles (b : SpitBody) (s : State) :
    (decideSpit b s).state.fdp.nozzles = s.fdp.nozzles := by
  unfold decideSpit
  dsimp only
  split <;> rfl

@[simp] theorem decideFilled_nozzles (s : State) : (decideFilled s).state.fdp.nozzles = s.fdp.nozzles := by
  simp [decideFilled]

@[simp] theorem decideStart_nozzles (s : State) : (decideStart s).state.fdp.nozzles = s.fdp.nozzles := by
  unfold decideStart
  repeat' split
  all_goals simp

@[simp] theorem decideStop_nozzles (s : State) : (decideStop s).state.fdp.nozzles = s.fdp.nozzles := by
  unfold decideStop
  repeat' split
  all_goals simp

@[simp] theorem decideHalt_nozzles (s : State) : (decideHalt s).state.fdp.nozzles = s.fdp.nozzles := by
  simp [decideHalt]

@[simp] theorem decideAck_nozzles (kind number count : Nat) (s : State) :
    (decideAck kind number count s).state.fdp.nozzles = s.fdp.nozzles := by
  unfold decideAck
  repeat' split
  all_goals simp

end Sys2Proof.Machine
end

section
/-!
SUPPORT, O2 and O3. How a command runs: an event that brings no frame writes neither settings nor inputs but its own,
and a frame is served at once or as the pipe is read. What a command keeps is said once, by `CommandKeeps`; what is kept
whatever the pipe spells, by `KeepsInputs`.
-/

namespace Sys2Proof.Machine

/-! ### The inputs -/

@[simp] theorem readEstop_pins (active : Bool) (s : State) :
    (readEstop active s).pins = { s.pins with estop := active } := by
  unfold readEstop
  dsimp only
  split <;> simp

@[simp] theorem readGuard_pins (g : Nat) (high : Bool) (s : State) : (readGuard g high s).pins =
    { s.pins with guards :=
        if high then s.pins.guards ||| BitVec.ofNat 4 (2 ^ (g - 1))
        else s.pins.guards &&& ~~~ BitVec.ofNat 4 (2 ^ (g - 1)) } := by
  simp [readGuard]

/-- The first reading leaves the inputs as they are (R211). -/
@[simp] theorem firstReading_pins (s : State) : (firstReading s).pins = s.pins := by
  simp [firstReading]

@[simp] theorem decideReset_pins (s : State) : (decideReset s).state.pins = s.pins := by
  unfold decideReset
  repeat' split
  all_goals simp

/-- The level of KEY is kept with every answer (log entry 10). -/
@[simp] theorem decideConfig_pins (key : Bool) (es : List SettingEntry) (s : State) :
    (decideConfig key es s).state.pins = { s.pins with key := key } := by
  unfold decideConfig
  dsimp only
  repeat' split
  all_goals simp

@[simp] theorem decideProfile_pins (key : Bool) (id : Nat) (b : ProfileBody) (s : State) :
    (decideProfile key id b s).state.pins = { s.pins with key := key } := by
  unfold decideProfile
  dsimp only
  repeat' split
  all_goals simp

/-! ### The settings -/

theorem storeSettings_prf (l : LineSettings) (s : State) : (storeSettings l s).prf = { s.prf with line := l } :=
  storeSettings_keepsShop.prf

theorem decideConfig_prf (key : Bool) (es : List SettingEntry) (s : State) :
    ∃ l, (decideConfig key es s).state.prf = { s.prf with line := l } := by
  unfold decideConfig
  dsimp only
  repeat' split
  case isFalse.isFalse.isFalse.isFalse => exact ⟨_, storeSettings_prf _ _⟩
  all_goals exact ⟨s.prf.line, rfl⟩

theorem decideProfile_prf (key : Bool) (id : Nat) (b : ProfileBody) (s : State) :
    ∃ ps, (decideProfile key id b s).state.prf = { s.prf with profiles := ps } := by
  unfold decideProfile
  dsimp only
  repeat' split
  all_goals exact ⟨_, rfl⟩

theorem decideCure_prf (b : CureBody) (s : State) : ∃ c, (decideCure b s).state.prf = { s.prf with cure := c } := by
  unfold decideCure
  dsimp only
  split
  all_goals exact ⟨_, rfl⟩

theorem decideSpit_prf (b : SpitBody) (s : State) : ∃ p, (decideSpit b s).state.prf = { s.prf with spit := p } := by
  rw [decideSpit_eq]
  exact ⟨_, rfl⟩

/-! ### A request taken -/

theorem take_keeps (kind tag : Byte) (d : State → Answer) (s : State) :
    (take kind tag d s).clock = (d s).state.clock ∧ (take kind tag d s).pins = (d s).state.pins ∧
    (take kind tag d s).prf = (d s).state.prf ∧ (take kind tag d s).fdp = (d s).state.fdp ∧
    (take kind tag d s).pending = (d s).state.pending := by
  simp [take]

/-! ### What a command keeps -/

/-- What a command keeps while no frame but its own is read: the queue, the clock, and the inputs, profiles, settings,
nozzle map and bytes of the store that are not its own to change (R33, R52, R63, R143). -/
structure CommandKeeps (c : Instr) (s t : State) : Prop where
  pending : t.pending = s.pending
  clock : t.clock = s.clock
  estop : (∀ a, c ≠ .estopChange a) → t.pins.estop = s.pins.estop
  guards : (∀ n h, c ≠ .guardChange n h) → t.pins.guards = s.pins.guards
  key : (∀ i k es, c ≠ .configSet i k es) → (∀ i k j b, c ≠ .profileSet i k j b) → t.pins.key = s.pins.key
  profiles : (∀ i k j b, c ≠ .profileSet i k j b) → t.prf.profiles = s.prf.profiles
  line : (∀ i k es, c ≠ .configSet i k es) → t.prf.line = s.prf.line
  cure : (∀ i b, c ≠ .cureSet i b) → t.prf.cure = s.prf.cure
  spit : (∀ i b, c ≠ .spitSet i b) → t.prf.spit = s.prf.spit
  nozzles : (∀ i es, c ≠ .nozzleSet i es) → t.fdp.nozzles = s.fdp.nozzles
  store : (∀ i ch b e d, c ≠ .band i ch b e d) → t.ims.store = s.ims.store

section
variable {c : Instr} {s t : State}

/-- A command that changes none of it. -/
theorem CommandKeeps.same (h : t.pending = s.pending ∧ t.clock = s.clock ∧ t.pins = s.pins ∧ t.prf = s.prf ∧
    t.fdp.nozzles = s.fdp.nozzles ∧ t.ims.store = s.ims.store) : CommandKeeps c s t := by
  obtain ⟨pending, clock, pins, prf, nozzles, store⟩ := h
  constructor <;> intros <;> simp only [pending, clock, pins, prf, nozzles, store]

/-- A command that writes LNK alone. -/
theorem CommandKeeps.ofLink (h : Touches [.lnk] s t) : CommandKeeps c s t :=
  .same ⟨h.pending, h.clock, h.pins rfl, h.prf rfl, by rw [h.fdp rfl], by rw [h.ims rfl]⟩

/-- Placing the reply and choosing what to send write LNK alone: a request keeps what its owner keeps. -/
theorem CommandKeeps.take {kind tag : Byte} {d : State → Answer} (h : CommandKeeps c s (d s).state) :
    CommandKeeps c s (take kind tag d s) := by
  obtain ⟨pending, clock, estop, guards, key, profiles, line, cure, spit, nozzles, store⟩ := h
  constructor <;> simpa only [take_keeps, take_store]

end

/-! ### A frame served -/

theorem takeRejected_link (f : Received) (s : State) : Touches [.lnk] s (takeRejected f s) := by
  unfold takeRejected
  split
  · exact .step (.step (.refl _ s) (placeReply_frame _ s) rfl) (transmit_frame _) rfl
  · exact .refl _ s

/-- A frame that is taken changes what its request is for. -/
theorem serve_keeps (c : Instr) (s : State) : CommandKeeps c s (serve c s) := by
  cases c
  case configSet tag key es =>
    obtain ⟨l, prf⟩ := decideConfig_prf key es s
    have owner : CommandKeeps (.configSet tag key es) s (decideConfig key es s).state := by
      constructor <;> simp [prf, -Bool.forall_bool]
    exact owner.take
  case profileSet tag key id b =>
    obtain ⟨ps, prf⟩ := decideProfile_prf key id b s
    have owner : CommandKeeps (.profileSet tag key id b) s (decideProfile key id b s).state := by
      constructor <;> simp [prf, -Bool.forall_bool]
    exact owner.take
  case cureSet tag b =>
    obtain ⟨cure, prf⟩ := decideCure_prf b s
    have owner : CommandKeeps (.cureSet tag b) s (decideCure b s).state := by
      constructor <;> simp [prf]
    exact owner.take
  case spitSet tag b =>
    obtain ⟨spit, prf⟩ := decideSpit_prf b s
    have owner : CommandKeeps (.spitSet tag b) s (decideSpit b s).state := by
      constructor <;> simp [prf]
    exact owner.take
  case nozzleSet tag es =>
    have owner : CommandKeeps (.nozzleSet tag es) s (decideNozzleSet es s).state := by
      constructor <;> simp
    exact owner.take
  case band tag ch b enc data =>
    have owner : CommandKeeps (.band tag ch b enc data) s (decideBand ch b enc data s).state := by
      constructor <;> simp
    exact owner.take
  case frameRejected kind tag body crc => exact .ofLink (takeRejected_link _ s)
  case ident | statusGet | reset | configGet | profileGet | nozzleGet | imageOpen | imageClose | imageAbort
      | imageDelete | imageGet | orderAdd | orderRush | orderCancel | orderGet | garmentGet | recureDrop | binClear
      | fluidFilled | lineStart | lineStop | lineHalt | alarmGet | alarmAck | drillStep =>
    simp only [serve, takeIdent, takeStatusGet, takeReset, takeConfigGet, takeProfileGet, takeNozzleGet, takeImageOpen,
      takeImageClose, takeImageAbort, takeImageDelete, takeImageGet, takeOrderAdd, takeOrderRush, takeOrderCancel,
      takeOrderGet, takeGarmentGet, takeRecureDrop, takeBinClear, takeFluidFilled, takeLineStart, takeLineStop,
      takeLineHalt, takeAlarmGet, takeAlarmAck, takeDrillStep]
    exact .take (.same (by simp))
  all_goals exact .same ⟨rfl, rfl, rfl, rfl, rfl, rfl⟩

/-! ### The pipe -/

/-- Where no byte waits and the parser seeks a sync, a frame is served at its event or joins the pipe (R212, R214). -/
theorem deliver_apart {c : Instr} {s : State} (h : Apart c s) :
    deliver c s = serve c s ∨ Touches [.lnk] s (deliver c s) := by
  obtain ⟨pipe, parser, -⟩ := h
  cases reads : readsRequests s with
  | true =>
    have between : betweenFrames s = true := by
      rcases parser with p | p <;> simp [betweenFrames, reads, pipe, p]
    exact .inl (by rw [deliver, if_pos between])
  | false =>
    rw [deliver_held reads]
    exact .inr (State.withLnk_frame (fun l => { l with pipe := l.pipe ++ [chunkOf c] }) s)

/-- A frame ends in its body alone. -/
theorem feed_none {p : Parser} (h : ∀ k t n got, p ≠ .body k t n got) (b : Byte) : (feed p b).2 = none := by
  unfold feed
  split
  · rfl
  · exact absurd rfl (h _ _ _ _)
  · rfl

/-- The sync and the four bytes of a header complete no frame (R214). -/
theorem header_quiet (kind tag hi lo : Byte) {p : Parser} (hp : p = .hunt ∨ p = .sync) :
    ∀ k < 6, ∀ b, [0xA5, 0x3C, kind, tag, hi, lo][k]? = some b →
      (feed (([0xA5, 0x3C, kind, tag, hi, lo].take k).foldl (fun q b => (feed q b).1) p) b).2 = none := by
  intro k hk b _
  refine feed_none (fun k' t n got => ?_) b
  rcases hp with rfl | rfl <;> interval_cases k <;> nofun

/-- Bytes that are read to their end leave nothing in an empty pipe. -/
theorem arrive_read {k : Chunk} {s t : State} (pipe : s.lnk.pipe = []) (reads : readsRequests s = true)
    (read : readBytes k.key k.bytes { s with lnk := { s.lnk with pipe := [] } } = ([], t)) : arrive k s = t := by
  have still : readsRequests { s with lnk := { s.lnk with pipe := [] } } = true := reads
  simp [arrive, readPipe, pipe, readChunks, State.withLnk, still, read]

/-- An implausible header moves the parser, or joins the pipe (R212, R214). -/
theorem arrive_header {s : State} (kind tag hi lo : Byte) (h : Apart (.implausibleHeader kind tag hi lo) s) :
    Touches [.lnk] s (arrive (chunkOf (.implausibleHeader kind tag hi lo)) s) := by
  obtain ⟨pipe, parser, -⟩ := h
  cases reads : readsRequests s with
  | false =>
    rw [arrive_held reads]
    exact State.withLnk_frame (fun l => { l with pipe := _ }) s
  | true =>
    have quiet := readBytes_quiet none [0xA5, 0x3C, kind, tag, hi, lo] [] { s with lnk := { s.lnk with pipe := [] } }
      reads (header_quiet kind tag hi lo parser)
    rw [arrive_read pipe reads quiet]
    exact State.withLnk_frame (fun l => { l with pipe := [], parser := _ }) s

theorem transmit_pipe (s : State) : (transmit s).lnk.pipe = s.lnk.pipe :=
  (congrArg Lnk.pipe (transmit_sent s).link :)

theorem replyRead_apart {s : State} (h : s.lnk.pipe = []) : Touches [.lnk] s (replyRead s) := by
  unfold replyRead
  split
  · rw [readPipe_nil (by rw [transmit_pipe]; exact h)]
    exact .step (State.withLnk_frame _ s) (transmit_frame _) rfl
  · exact .refl _ s

theorem configure_apart {s : State} (h : s.lnk.pipe = []) : Touches [.lnk] s (configure s) := by
  unfold configure
  rw [readPipe_nil (by rw [transmit_pipe]; exact h)]
  exact .step (State.withLnk_frame _ s) (transmit_frame _) rfl

/-! ### How a command runs -/

/-- The state in which a command leaves `s`: power-on makes it anew, an event that brings no frame keeps what is not its
own, and every other command serves frames, its own at once where the part stands between two, or those that the bytes
in the pipe spell (R211, R212, R214). -/
inductive Runs (c : Instr) (s : State) : State → Prop
  | powerOn {t : State} (e : Bool) (g : BitVec 4) (own : c = .powerOn e g) : Runs c s t
  | event {t : State} (keeps : CommandKeeps c s t) : Runs c s t
  | frame : Runs c s (deliver c s)
  | header (kind tag hi lo : Byte) (own : c = .implausibleHeader kind tag hi lo) : Runs c s (arrive (chunkOf c) s)
  | unanswered (kind tag : Byte) (body : List Byte) (crc : Crc) (own : c = .frameRejected kind tag body crc)
      (h : ¬ Answered { kind := kind, tag := tag, body := body, crc := crc }) : Runs c s (arrive (chunkOf c) s)
  | replyRead : Runs c s (replyRead s)
  | configure : Runs c s (configure s)

theorem exec_runs (c : Instr) (s : State) : ∃ t, exec c s = .next t ∧ Runs c s t := by
  cases c
  case powerOn e g => exact ⟨_, rfl, .powerOn e g rfl⟩
  case frameRejected kind tag body crc =>
    refine ⟨_, rfl, ?_⟩
    split
    · exact .frame
    next h =>
      refine .unanswered kind tag body crc rfl fun answered => h ?_
      simpa [Answered, Option.isSome_iff_ne_none] using answered
  case implausibleHeader kind tag hi lo => exact ⟨_, rfl, .header kind tag hi lo rfl⟩
  case replyRead => exact ⟨_, rfl, .replyRead⟩
  case usbConfigured => exact ⟨_, rfl, .configure⟩
  case estopChange active => exact ⟨_, rfl, .event (by constructor <;> simp [-Bool.forall_bool])⟩
  case guardChange n high => exact ⟨_, rfl, .event (by constructor <;> simp [-Bool.forall_bool])⟩
  case ident | statusGet | reset | configSet | configGet | profileSet | profileGet | cureSet | spitSet | nozzleSet
      | nozzleGet | imageOpen | band | imageClose | imageAbort | imageDelete | imageGet | orderAdd | orderRush
      | orderCancel | orderGet | garmentGet | recureDrop | binClear | fluidFilled | lineStart | lineStop | lineHalt
      | alarmGet | alarmAck | drillStep =>
    exact ⟨_, rfl, .frame⟩
  all_goals exact ⟨_, rfl, .event (.same (by simp))⟩

section
variable {c : Instr} {s t : State}

/-- While no frame but its own is read, a command keeps what is not its own. -/
theorem Runs.keeps (h : Runs c s t) (apart : Apart c s) (on : ∀ e g, c ≠ .powerOn e g) : CommandKeeps c s t := by
  cases h with
  | powerOn e g own => exact absurd own (on e g)
  | event keeps => exact keeps
  | frame =>
    rcases deliver_apart apart with served | held
    · rw [served]; exact serve_keeps c s
    · exact .ofLink held
  | header kind tag hi lo own => subst own; exact .ofLink (arrive_header kind tag hi lo apart)
  | unanswered kind tag body crc own h =>
    obtain ⟨-, -, answered⟩ := apart
    exact absurd (answered kind tag body crc own) h
  | replyRead => exact .ofLink (replyRead_apart apart.1)
  | configure => exact .ofLink (configure_apart apart.1)

end

/-! ### Whatever is read -/

/-- `t` has the queue, the clock and the levels of e-stop and the guards of `s`. -/
structure KeepsInputs (s t : State) : Prop where
  pending : t.pending = s.pending
  clock : t.clock = s.clock
  estop : t.pins.estop = s.pins.estop
  guards : t.pins.guards = s.pins.guards

theorem KeepsInputs.trans {s t u : State} (h : KeepsInputs s t) (k : KeepsInputs t u) : KeepsInputs s u :=
  ⟨k.pending.trans h.pending, k.clock.trans h.clock, k.estop.trans h.estop, k.guards.trans h.guards⟩

theorem KeepsInputs.ofLink {s t : State} (h : Touches [.lnk] s t) : KeepsInputs s t :=
  ⟨h.pending, h.clock, by rw [h.pins rfl], by rw [h.pins rfl]⟩

/-- No frame brings a level of e-stop or of a guard. -/
theorem serve_keepsInputs (c : Instr) (s : State) : KeepsInputs s (serve c s) := by
  have keeps := serve_keeps c s
  by_cases own : ∃ a n h, c = .estopChange a ∨ c = .guardChange n h
  · obtain ⟨a, n, h, rfl | rfl⟩ := own
    · exact ⟨rfl, rfl, rfl, rfl⟩
    · exact ⟨rfl, rfl, rfl, rfl⟩
  · push Not at own
    exact ⟨keeps.pending, keeps.clock, keeps.estop fun a => (own a 0 true).1, keeps.guards fun n h => (own true n h).2⟩

theorem readPipe_keepsInputs (s : State) : KeepsInputs s (readPipe s) :=
  readPipe_keeps (P := KeepsInputs s) (fun _ _ _ h => ⟨h.pending, h.clock, h.estop, h.guards⟩)
    (fun c u h => h.trans (serve_keepsInputs c u)) s ⟨rfl, rfl, rfl, rfl⟩

theorem arrive_keepsInputs (k : Chunk) (s : State) : KeepsInputs s (arrive k s) :=
  (KeepsInputs.ofLink (State.withLnk_frame _ s)).trans (readPipe_keepsInputs _)

theorem deliver_keepsInputs (c : Instr) (s : State) : KeepsInputs s (deliver c s) := by
  unfold deliver
  split
  · exact serve_keepsInputs c s
  · exact arrive_keepsInputs _ s

theorem replyRead_keepsInputs (s : State) : KeepsInputs s (replyRead s) := by
  unfold replyRead
  split
  · exact (KeepsInputs.ofLink (.step (State.withLnk_frame _ s) (transmit_frame _) rfl)).trans (readPipe_keepsInputs _)
  · exact .ofLink (.refl _ s)

theorem configure_keepsInputs (s : State) : KeepsInputs s (configure s) :=
  (KeepsInputs.ofLink (.step (State.withLnk_frame _ s) (transmit_frame _) rfl)).trans (readPipe_keepsInputs _)

/-- An event keeps what is not its own, and what is read keeps the inputs, whatever frames it spells. -/
theorem Runs.inputs {c : Instr} {s t : State} (h : Runs c s t) (on : ∀ e g, c ≠ .powerOn e g) :
    CommandKeeps c s t ∨ KeepsInputs s t := by
  cases h with
  | powerOn e g own => exact absurd own (on e g)
  | event keeps => exact .inl keeps
  | frame => exact .inr (deliver_keepsInputs c s)
  | header | unanswered => exact .inr (arrive_keepsInputs _ s)
  | replyRead => exact .inr (replyRead_keepsInputs s)
  | configure => exact .inr (configure_keepsInputs s)

/-! ### The obligations -/

/-- Settles O2: how the command runs, with the inputs kept by all that is read. -/
theorem everyCommandAnswers : Obligations.EveryCommandAnswers := by
  intro c s
  by_cases on : ∃ e g, c = .powerOn e g
  · obtain ⟨e, g, rfl⟩ := on
    exact ⟨_, rfl, by simp, fun on => absurd rfl (on e g), fun on => absurd rfl (on e g), fun on => absurd rfl (on e g),
      fun _ _ _ => by simp⟩
  · push Not at on
    obtain ⟨t, next, runs⟩ := exec_runs c s
    refine ⟨t, next, ?_⟩
    have key : Apart c s → (∀ t k es, c ≠ .configSet t k es) → (∀ t k i b, c ≠ .profileSet t k i b) →
        t.pins.key = s.pins.key := fun apart => (runs.keeps apart on).key
    rcases runs.inputs on with k | k
    · exact ⟨k.pending, fun _ => k.clock, fun _ => k.estop, fun _ => k.guards, key⟩
    · exact ⟨k.pending, fun _ => k.clock, fun _ _ => k.estop, fun _ _ => k.guards, key⟩

/-- Settles O3: what is not the command's own is kept where no other frame is read. -/
theorem settingsKeptByOthers : Obligations.SettingsKeptByOthers := by
  intro c s t apart next on
  obtain ⟨u, ran, runs⟩ := exec_runs c s
  obtain rfl : u = t := Host.Outcome.next.inj (ran.symm.trans next)
  have keeps := runs.keeps apart on
  exact ⟨keeps.profiles, keeps.line, keeps.cure, keeps.spit, keeps.nozzles, keeps.store⟩

end Sys2Proof.Machine
end

section
/-!
SUPPORT. Stations and the reports of a level condition as the statements on PRETREAT and FLASH use them: a completion
report is `freed`, and a condition reported as it already stands changes nothing (R66, R196).
-/

namespace Sys2Proof.Machine

/-! ### Stations and garments -/

theorem garmentAt_some {st : Station} {n : Nat} {s : State} (hi : s.car.index = .none)
    (hc : contentsAt st s = .garment n) : garmentAt st s = some n := by
  simp [garmentAt, hi, hc]

theorem garmentAt_none {st : Station} {s : State} (h : s.car.index ≠ .none ∨ ∀ n, contentsAt st s ≠ .garment n) :
    garmentAt st s = none := by
  unfold garmentAt
  split
  · next n hi hc => exact (h.elim (· hi) (· n hc)).elim
  · rfl

theorem lineMoves_iff (s : State) : lineMoves s = true ↔ s.car.line = .running ∨ s.car.line = .draining := by
  simp [lineMoves]

/-- A completion report at a station (R66). -/
theorem release_eq (st : Station) (s : State) : release st s = freed st s := by
  by_cases h : (station st s).hold = .none
  · simp [release, freed, setHold, h]
  · have after : station st (setHold st .none s) = { station st s with hold := .none } := by
      rw [setHold, if_neg h]; cases st <;> rfl
    rw [release, freed, after, setHold, if_neg h, if_neg h]
    cases st <;> rfl

/-! ### Reports of a level condition -/

theorem alarm_out {i : Nat} {s : State} (h : s.alm.alarms.length ≤ i) : alarm i s = .powerOn := by
  simp [alarm, List.getElem?_eq_none h]

/-- An alarm whose record is not as at power-on is in the table. -/
theorem alarm_listed {i : Nat} {s : State} (h : alarm i s ≠ .powerOn) : i < s.alm.alarms.length :=
  Nat.lt_of_not_le fun out => h (alarm_out out)

theorem reportCondition_absent (i : Nat) (s : State) : (alarm i (reportCondition i false s)).present = false := by
  by_cases hp : (alarm i s).present = true
  · exact reportCondition_present i false s (alarm_listed fun e => by rw [e] at hp; cases hp)
  · rw [reportCondition_false, if_neg hp]
    simpa using hp

theorem reportCondition_again {i : Nat} {now : Bool} {s : State} (h : (alarm i s).present = now) :
    reportCondition i now s = s := by
  cases now <;> simp [reportCondition, h]

end Sys2Proof.Machine
end

section
/-!
O49. The cell times of a spray schedule (R89 to R93).
-/

namespace Sys2Proof.Machine

/-! ### Cell times (R91, R92) -/

theorem cellRatio_le_full (b : Basis) {c : Cell} (hw : c.white ≤ 864000) (ha : c.white + c.colour ≤ 4320000) :
    cellRatio b c ≤ 1000 := by
  cases b <;> simp only [cellRatio] <;> omega

section
variable {p : Profile} {window d : Nat} {c : Cell}

theorem cellTime_below (h : cellRatio p.basis c < p.pFloor) : cellTime p window d c = 0 := if_pos h

theorem cellTime_late (h : window ≤ d) : cellTime p window d c = 0 := by
  simp [cellTime, h]

theorem cellTime_sprayed (hp : p.pFloor ≤ cellRatio p.basis c) (hd : d < window) : cellTime p window d c =
    min (max (p.tBase + p.tGain * cellRatio p.basis c / 1000) p.tMin) (min p.tMax (window - d)) := by
  rw [cellTime, if_neg (Nat.not_lt.mpr hp), if_neg (Nat.not_le.mpr hd)]

/-- A valve stays open neither beyond T_max nor beyond its row window (R92). -/
theorem cellTime_le : cellTime p window d c ≤ min p.tMax (window - d) := by
  by_cases hp : cellRatio p.basis c < p.pFloor
  · rw [cellTime_below hp]; exact Nat.zero_le _
  · by_cases hd : window ≤ d
    · rw [cellTime_late hd]; exact Nat.zero_le _
    · rw [cellTime_sprayed (Nat.not_lt.mp hp) (Nat.not_le.mp hd)]; exact Nat.min_le_right _ _

end

/-! ### The schedule (R93) -/

theorem scheduleOf_time (p : Profile) (cov : Coverage) (l : LineSettings) {lane row : Nat} (hl : lane < 8)
    (hr : row < 13) : (scheduleOf p cov l).time lane row =
      cellTime p (rowWindow l.barSpeed) ((laneDelaysOf l)[lane]?.getD 0) (cov.cell lane row) := by
  have inRange : lane * 13 + row < 104 := by omega
  have quotient : (lane * 13 + row) / 13 = lane := by omega
  have remainder : (lane * 13 + row) % 13 = row := by omega
  simp [Schedule.time, scheduleOf, inRange, quotient, remainder]

/-- Settles O49: the ratio by the basis, the time by its three branches, and the schedule cell by cell. -/
theorem cellTimes : Obligations.CellTimes := by
  refine ⟨fun c => ?_, fun p window d c => ?_, fun p cov l lane row delay hl hr hd => ?_⟩
  · refine ⟨rfl, rfl, fun h => ?_, fun h => ?_, fun h => ?_, fun hw hc => ?_⟩
    · simp only [cellRatio]; omega
    · simp only [cellRatio]; omega
    · simp [cellRatio, h]
    · simp [cellRatio, hw, hc]
  · have bound : cellTime p window d c ≤ min p.tMax (window - d) := cellTime_le
    refine ⟨cellTime_below, cellTime_late, cellTime_sprayed, fun h => ?_, fun _ => ?_, fun hb hg hw ha => ?_⟩
    · omega
    · omega
    · have gain : p.tGain * cellRatio p.basis c / 1000 ≤ 4000 :=
        Nat.div_le_of_le_mul (by
          calc p.tGain * cellRatio p.basis c ≤ 4000 * 1000 := Nat.mul_le_mul hg (cellRatio_le_full _ hw ha)
            _ = 1000 * 4000 := rfl)
      omega
  · refine ⟨by simp [scheduleOf], ?_, rfl⟩
    rw [scheduleOf_time p cov l hl hr]
    simp [laneDelaysOf, hd, rowWindow]

end Sys2Proof.Machine
end

section
/-!
O50. PRETREAT: FLUID_FILLED, the traverse and the bar's return, one lemma per operation and branch (R89, R94 to R97).
-/

namespace Sys2Proof.Machine

/-! ### FLUID_FILLED (R95) -/

/-- `s` with the estimate at the capacity (R95). -/
def topped (s : State) : State := { s with ptr := { s.ptr with tank := s.prf.line.tankCap * 1000000 } }

/-- `s` with the estimate at the capacity, and FLUID_LOW ended (R95). -/
def refilled (s : State) : State := reportCondition aFluidLow false (topped s)

theorem refilled_eq (s : State) :
    refilled s = if (alarm 4 s).present = true then endedAt 4 (topped s) else topped s :=
  reportCondition_false _ _

theorem refilled_ptr (s : State) : (refilled s).ptr = (topped s).ptr := by simp [refilled]

theorem refilled_prf (s : State) : (refilled s).prf = s.prf := by simp [refilled, topped]

theorem exec_fluidFilled {s : State} (hs : Reads s) (tag : Byte) : exec (.fluidFilled tag) s =
    .next (replied 0x40 tag .ok [] (advance (retestFluid (refilled s)))) := by
  have kept : KeepsShop (topped s) (advance (retestFluid (refilled s))) :=
    ((reportCondition_keepsShop _ _ _).trans (retestFluid_keepsShop _)).trans (advance_onward _).1.keepsShop
  have decided : decideFilled s = accept false (advance (retestFluid (refilled s))) := rfl
  have taken : exec (.fluidFilled tag) s = .next (take 0x40 tag decideFilled s) := congrArg _ (deliver_reads hs _)
  rw [taken, take_accepted hs decided kept.configured]
  rfl

/-- The test passes with the tank filled: FLUID_LOW has ended already (R94, R95). -/
theorem fluidTested_refilled_passes {c : Schedule} {s : State}
    (h : c.fluid + s.prf.line.tankReserve * 1000000 ≤ s.prf.line.tankCap * 1000000) : fluidTested c (refilled s) =
      setHold .pretreat .none { refilled s with ptr := { (refilled s).ptr with job := .waiting } } := by
  have fits : c.fluid + (refilled s).prf.line.tankReserve * 1000000 ≤ (refilled s).ptr.tank := by
    rw [refilled_prf, refilled_ptr]; exact h
  have absent : (alarm 4 (refilled s)).present ≠ true := by
    rw [refilled, reportCondition_absent aFluidLow]; simp
  rw [fluidTested, if_pos fits, if_neg absent]

/-- A garment that needs more than a full tank gives has FLUID_LOW begin anew (R94, R95). -/
theorem fluidTested_refilled_fails {c : Schedule} {s : State}
    (h : s.prf.line.tankCap * 1000000 < c.fluid + s.prf.line.tankReserve * 1000000) : fluidTested c (refilled s) =
      alarmed 4 Alarm.begun
        (setHold .pretreat .fluidLow { refilled s with ptr := { (refilled s).ptr with job := .held } }) := by
  have short : ¬ c.fluid + (refilled s).prf.line.tankReserve * 1000000 ≤ (refilled s).ptr.tank := by
    rw [refilled_prf, refilled_ptr]; exact Nat.not_le.mpr h
  have absent : (alarm 4 (refilled s)).present ≠ true := by
    rw [refilled, reportCondition_absent aFluidLow]; simp
  rw [fluidTested, if_neg short, if_neg absent]

/-! ### The traverse (R96) -/

theorem rowValves_eq (c : Schedule) (row : Nat) : c.rowValves row =
    (List.range 8).map fun lane => if (c.times[13 * lane + row]?).getD 0 = 0 then .closed else .waiting :=
  List.map_congr_left fun lane _ => by rw [Schedule.time, Nat.mul_comm]

theorem startTraverse_begins {c : Schedule} {s : State} (hj : s.ptr.job = .waiting)
    (hl : s.car.line = .running ∨ s.car.line = .draining) (hb : s.ptr.bar = .parked) (h : s.ptr.schedule = some c) :
    startTraverse s = { s with ptr := { s.ptr with
      bar := .out, barTravel := 0, barFrom := some s.clock, job := .spraying, row := 0,
      valves := c.rowValves 0 } } := by
  simp [startTraverse, h, hj, (lineMoves_iff s).mpr hl, hb, State.withPtr]

theorem startTraverse_stays {s : State} (h : ¬ (s.ptr.job = .waiting ∧
    (s.car.line = .running ∨ s.car.line = .draining) ∧ s.ptr.bar = .parked) ∨ s.ptr.schedule = none) :
    startTraverse s = s := by
  unfold startTraverse
  split
  · rfl
  · next c hc =>
    have barred := h.resolve_right (by simp [hc])
    exact if_neg fun ⟨hj, hl, hb⟩ => barred ⟨hj, (lineMoves_iff s).mp hl, hb⟩

theorem closeValve_open {lane since : Nat} {s : State} (hj : s.ptr.job = .spraying)
    (hv : s.ptr.valves[lane]? = some (.open_ since)) :
    closeValve lane s = { s with ptr := { s.ptr with valves := s.ptr.valves.set lane .closed } } := by
  simp [closeValve, hj, hv, State.withPtr]

theorem closeValve_stays {lane : Nat} {s : State}
    (h : ¬ (s.ptr.job = .spraying ∧ ∃ since, s.ptr.valves[lane]? = some (.open_ since))) : closeValve lane s = s := by
  unfold closeValve
  split
  · next since hj hv => exact (h ⟨hj, since, hv⟩).elim
  · rfl

theorem endTraverse_idle {s : State} (hj : s.ptr.job ≠ .spraying) : endTraverse s = s := by
  unfold endTraverse
  split
  · exact if_neg hj
  · rfl

theorem endRow_idle {s : State} (hj : s.ptr.job ≠ .spraying) : endRow s = s := by
  unfold endRow
  split
  · rfl
  · exact if_neg hj

theorem endRow_next {c : Schedule} {s : State} (h : s.ptr.schedule = some c) (hj : s.ptr.job = .spraying)
    (hr : s.ptr.row < 12) : endRow s =
      { s with ptr := { s.ptr with row := s.ptr.row + 1, valves := c.rowValves (s.ptr.row + 1) } } := by
  simp [endRow, h, hj, hr, State.withPtr]

theorem endRow_last {c : Schedule} {s : State} (h : s.ptr.schedule = some c) (hj : s.ptr.job = .spraying)
    (hr : 12 ≤ s.ptr.row) : endRow s = endTraverse s := by
  simp [endRow, h, hj, Nat.not_lt.mpr hr]

/-- The traverse's end (R97). -/
theorem endTraverse_eq {c : Schedule} {n : Nat} {s : State} (h : s.ptr.schedule = some c)
    (hj : s.ptr.job = .spraying) (hg : garmentAt .pretreat s = some n) : endTraverse s = freed .pretreat
      (regarment n (fun g => { g with dose := min 65535 (c.fluid / 1000), stage := .pretreated }) { s with
        ptr := { s.ptr with tank := s.ptr.tank - c.fluid, bar := .back, barTravel := 13 * c.window * 100,
                            barFrom := some s.clock, job := .none, schedule := none, row := 0,
                            valves := List.replicate 8 .closed } }) := by
  have ended : endTraverse s = finishPretreat n (spend n c.fluid (s.withPtr fun p => { p with
      bar := .back, barTravel := 13 * c.window * 100, barFrom := some s.clock, row := 0,
      valves := closedValves })) := by
    simp [endTraverse, h, hg, hj]
  rw [ended, finishPretreat, release_eq]
  congr 1
  simp [setStage, spend, withGarment, regarment, State.withCar, State.withPtr, tabMap_tabMap, doseMg, closedValves]

theorem parkBar_stays {s : State} (h : ¬ (s.ptr.bar = .back ∧ s.ptr.barFrom.isSome = true)) : parkBar s = s :=
  if_neg h

/-- The bar's return ends (R96). -/
theorem parkBar_parks {s : State} (hb : s.ptr.bar = .back) (hf : s.ptr.barFrom.isSome = true) : parkBar s =
    retestFluid { s with ptr := { s.ptr with bar := .parked, barTravel := 0, barFrom := none } } :=
  if_pos ⟨hb, hf⟩

/-! ### The obligation -/

/-- Settles O50: each event by the lemma that says what its operation does; the test is made by `fluidTested`. -/
theorem pretreatment : Obligations.Pretreatment := by
  refine ⟨fun tag s hs => ?_, fun s => ⟨fun c may h => ?_, fun h => ?_⟩, fun s lane => ⟨fun hj hv => ?_, fun h => ?_,
    fun since hj hv => ?_, fun h => ?_⟩, fun s c => ⟨fun h hj hr => ?_, fun h hj hr => ?_, fun hj => ⟨?_, ?_⟩,
    fun n h hj hi hc => ?_⟩, fun s => ⟨fun hb hf hh hw => ?_, fun c hb hf hj h => ?_, fun h => ?_⟩⟩
  · have answered : ∀ v, retestFluid (refilled s) = v → ∃ t, exec (.fluidFilled tag) s = .next t ∧
        Onward (replied 0x40 tag .ok [] v) t := fun v e =>
      ⟨_, exec_fluidFilled hs tag, e ▸ (advance_onward _).1.replied _ _ _ _⟩
    have job : (refilled s).ptr.job = s.ptr.job := by rw [refilled_ptr]; rfl
    have plan : (refilled s).ptr.schedule = s.ptr.schedule := by rw [refilled_ptr]; rfl
    rw [← job, ← plan]
    intro u w
    have ended : w = refilled s := (refilled_eq s).symm
    rw [ended]
    refine ⟨fun hh hw => answered _ (retestFluid_idle hh hw), fun c hj h => ⟨fun fits => ?_, fun short => ?_⟩⟩
    · exact answered _ ((retestFluid_eq hj h).trans (fluidTested_refilled_passes fits))
    · exact answered _ ((retestFluid_eq hj h).trans (fluidTested_refilled_fails short))
  · obtain ⟨hj, hl, hb⟩ := may
    have begun := startTraverse_begins hj hl hb h
    rw [rowValves_eq] at begun
    exact ⟨_, rfl, begun ▸ transmit_sent _⟩
  · exact ⟨_, rfl, by
      have sent := transmit_sent (startTraverse s)
      rwa [startTraverse_stays h] at sent ⊢⟩
  · exact congrArg Host.Outcome.next (if_pos ⟨hj, hv⟩)
  · exact congrArg Host.Outcome.next (if_neg h)
  · exact congrArg Host.Outcome.next (closeValve_open hj hv)
  · exact congrArg Host.Outcome.next (closeValve_stays h)
  · exact settled ((endRow_next h hj hr).trans (by rw [rowValves_eq]; rfl))
  · exact congrArg (fun x => Host.Outcome.next (settle x)) (endRow_last h hj hr)
  · exact settled (endRow_idle hj)
  · exact settled (endTraverse_idle hj)
  · exact settled (endTraverse_eq h hj (garmentAt_some hi hc))
  · exact settled ((parkBar_parks hb hf).trans (retestFluid_idle hh hw))
  · exact settled ((parkBar_parks hb hf).trans (retestFluid_eq hj h))
  · exact settled (parkBar_stays h)

end Sys2Proof.Machine
end

section
/-!
O51. FLASH: the reading and the heater (R100), what is decided from a reading (R101), the two waits, the wait limit and
the dwell (R102 to R105).
-/

namespace Sys2Proof.Machine

/-! ### The alarm records and the blocks beside them -/

theorem alarm_alarmed {i : Nat} {s : State} (h : i < s.alm.alarms.length) (f : Alarm → Alarm) :
    alarm i (alarmed i f s) = f (alarm i s) := by
  have changed : alarm i (alarmed i f s) = alarm i (withAlarm i f s) := by
    unfold alarmed; dsimp only; split <;> rfl
  rw [changed, alarm_withAlarm i i f s h, if_pos rfl]

theorem setHold_alarm (i : Nat) (st : Station) (h : Hold) (s : State) : alarm i (setHold st h s) = alarm i s := by
  rw [alarm, (setHold_frame st h s).alm rfl, ← alarm]

theorem alarmed_withPtr (i : Nat) (f : Alarm → Alarm) (p : Ptr → Ptr) (s : State) :
    (alarmed i f s).withPtr p = alarmed i f (s.withPtr p) := by
  have same : masked i (s.withPtr p) = masked i s := rfl
  unfold alarmed
  rw [same]
  by_cases hm : masked i s = true <;> simp only [hm] <;> rfl

/-! ### The garment that waits (R103) -/

section
variable {s : State}

theorem unpressed_some {n : Nat} {g : Garment} (hw : s.car.flash.working = true)
    (hj : s.ptr.flashJob = .cold ∨ s.ptr.flashJob = .hot) (hi : s.car.index = .none)
    (hc : contentsAt .flash s = .garment n) (hg : garment n s = some g) (hd : 0 < g.profile.dwell) :
    unpressed s = some (n, g) := by
  have some := garmentAt_some hi hc
  unfold unpressed
  rcases hj with hj | hj <;> simp [hw, hj, some, hg, Nat.ne_of_gt hd]

theorem unpressed_pressed (h : s.ptr.flashJob = .pressing ∨ s.ptr.flashJob = .cut) : unpressed s = none := by
  unfold unpressed
  rcases h with h | h <;> simp [h]

theorem unpressed_absent (h : s.car.flash.working = false ∨ garmentAt .flash s = none) : unpressed s = none := by
  unfold unpressed
  rcases h with h | h <;> simp [h]

theorem unpressed_congr {t : State} (hc : t.car = s.car) (hj : t.ptr.flashJob = s.ptr.flashJob) :
    unpressed t = unpressed s := by
  simp only [unpressed, garmentAt, contentsAt, garment, hc, hj]

/-! ### The decision (R101) -/

theorem tooHot_iff (top : Nat) (s : State) :
    tooHot top s = true ↔ s.ptr.flashFaulted = true ∨ top < s.ptr.flashReading := by
  simp [tooHot]

theorem tooHot_congr {t : State} (hp : t.ptr = s.ptr) (top : Nat) : tooHot top t = tooHot top s := by
  simp only [tooHot, hp]

theorem flashHot_none (h : unpressed s = none) : flashHot s = false := by
  simp [flashHot, h]

theorem decideFlash_none (h : unpressed s = none) : decideFlash s = s := by
  simp [decideFlash, h]

section
variable {n : Nat} {g : Garment} (h : unpressed s = some (n, g))
include h

theorem flashHot_some : flashHot s = tooHot g.profile.tfMax s := by
  simp [flashHot, h]

theorem decideFlash_hot (hot : tooHot g.profile.tfMax s = true) :
    decideFlash s = reportCondition 6 true (beginHot s) := by
  simp [decideFlash, h, hot]

theorem decideFlash_cold (hot : tooHot g.profile.tfMax s = false) (low : s.ptr.flashReading < g.profile.tfMin) :
    decideFlash s = beginCold (reportCondition 6 false s) := by
  simp [decideFlash, h, hot, low]

theorem decideFlash_good (hot : tooHot g.profile.tfMax s = false) (high : g.profile.tfMin ≤ s.ptr.flashReading) :
    decideFlash s = closePress (reportCondition 6 false s) := by
  simp [decideFlash, h, hot, Nat.not_lt.mpr high]

end

end

theorem beginHot_alarm (i : Nat) (u : State) : alarm i (beginHot u) = alarm i u := setHold_alarm i .flash .flashHot _

/-- The cold wait begins in `u` at the time and by the setting of `s` (R102). -/
theorem beginCold_at {s u : State} (hc : u.clock = s.clock) (hp : u.prf = s.prf) : beginCold u =
    setHold .flash .preheat { u with ptr := { u.ptr with
      flashJob := .cold, waitFrom := some s.clock, waitLimit := s.prf.line.flashWait } } := by
  rw [← hc, ← hp]; rfl

/-- The press closes in `u` at the time of `s` (R104). -/
theorem closePress_at {s u : State} (hc : u.clock = s.clock) : closePress u =
    setHold .flash .none { u with ptr := { u.ptr with
      pressClosed := true, flashJob := .pressing, waitFrom := none, dwellFrom := some s.clock } } := by
  rw [← hc]; rfl

theorem beginHot_again {u : State} (hj : u.ptr.flashJob = .hot) :
    beginHot u = setHold .flash .flashHot { u with ptr := { u.ptr with waitFrom := none } } := by
  simp [beginHot, State.withPtr, hj]

/-! ### The sample (R100) -/

theorem lineWarm_iff (s : State) :
    lineWarm s = true ↔ s.car.line = .running ∨ s.car.line = .draining ∨ s.car.line = .stopped := by
  simp [lineWarm, lineMoves, or_assoc]

/-- `s` with a reading recorded and the press heater driven (R100). -/
def sampled (r : Reading) (s : State) : State :=
  { s with ptr := { s.ptr with
      flashReading := r.raw
      flashFaulted := r.fault || decide (3000 < r.raw)
      heater := match s.ptr.target with
        | some (lo, hi) => decide ((s.car.line = .running ∨ s.car.line = .draining ∨ s.car.line = .stopped) ∧
            r.fault = false ∧ r.raw ≤ 3000 ∧ r.raw < (lo + hi) / 2)
        | none => false } }

/-- `s` with a reading recorded, before the heater is driven. -/
def recorded (r : Reading) (s : State) : State :=
  s.withPtr fun p => { p with flashReading := r.raw, flashFaulted := r.fault || decide (3000 < r.raw) }

theorem heaterAt_recorded (r : Reading) (s : State) : heaterAt (recorded r s) = (sampled r s).ptr.heater := by
  have warm : lineWarm (recorded r s) = true ↔ _ := lineWarm_iff s
  have target : (recorded r s).ptr.target = s.ptr.target := rfl
  have faulted : (recorded r s).ptr.flashFaulted = (r.fault || decide (3000 < r.raw)) := rfl
  have reading : (recorded r s).ptr.flashReading = r.raw := rfl
  unfold heaterAt sampled
  rw [target]
  cases s.ptr.target with
  | none => rfl
  | some window => rw [Bool.eq_iff_iff]; simp [warm, faulted, reading, and_assoc]

theorem sampleFlash_eq (r : Reading) (s : State) : sampleFlash r s =
    flashWaitSample (reportCondition 6 (flashHot (sampled r s)) (sampled r s)) := by
  have driven : (recorded r s).withPtr (fun p => { p with heater := heaterAt (recorded r s) }) = sampled r s := by
    rw [heaterAt_recorded]; rfl
  exact congrArg (fun u => flashWaitSample (reportCondition 6 (flashHot u) u)) driven

theorem tooHot_sampled (top : Nat) (r : Reading) (s : State) :
    tooHot top (sampled r s) = true ↔ r.fault = true ∨ 3000 < r.raw ∨ top < r.raw := by
  simp [tooHot, sampled, or_assoc]

section
variable {r : Reading} {s : State}

theorem unpressed_sampled : unpressed (sampled r s) = unpressed s := unpressed_congr rfl rfl

/-- No garment waits: the reading is recorded, and that is all. -/
theorem sampleFlash_idle (ha : (alarm 6 s).present = false) (h : unpressed s = none) :
    sampleFlash r s = sampled r s := by
  have none : unpressed (sampled r s) = none := unpressed_sampled.trans h
  have absent : (alarm 6 (sampled r s)).present = false := ha
  rw [sampleFlash_eq, flashHot_none none, reportCondition_again absent]
  unfold flashWaitSample
  split
  · next hn => rw [none] at hn; cases hn
  · next hn => rw [none] at hn; cases hn
  · rfl

section
variable {n : Nat} {g : Garment} (h : unpressed s = some (n, g))
include h

theorem sampleFlash_some : sampleFlash r s = flashWaitSample
    (reportCondition 6 (tooHot g.profile.tfMax (sampled r s)) (sampled r s)) := by
  rw [sampleFlash_eq, flashHot_some (unpressed_sampled.trans h)]

theorem flashWaitSample_cold (hj : s.ptr.flashJob = .cold) : flashWaitSample s =
    if tooHot g.profile.tfMax s = false ∧ s.ptr.flashReading < g.profile.tfMin then s else decideFlash s := by
  simp [flashWaitSample, h, hj]

theorem flashWaitSample_hot (hj : s.ptr.flashJob = .hot) : flashWaitSample s =
    if tooHot g.profile.tfMax s = true then s else endHotWait s := by
  simp [flashWaitSample, h, hj, flashHot_some h]

end

end

/-! ### The end of a hot wait (R103, R105) -/

theorem ownerIdle_iff (i : Nat) (s : State) :
    ownerIdle i s = true ↔ (alarm i s).state = .idle ∨ (alarm i s).simulated = true := by
  simp [ownerIdle]

section
variable {s : State}

theorem endHotWait_waits (h : ¬ ownerIdle 6 s = true) : endHotWait s = s :=
  if_neg fun both => h both.2

theorem endHotWait_halted (hj : s.ptr.flashJob = .hot) (idle : ownerIdle 6 s = true) (hl : s.car.line = .halted) :
    endHotWait s = { s with ptr := { s.ptr with hotOver := true } } :=
  (if_pos ⟨hj, idle⟩).trans (if_pos hl)

theorem endHotWait_decides (hj : s.ptr.flashJob = .hot) (idle : ownerIdle 6 s = true) (hl : s.car.line ≠ .halted) :
    endHotWait s = decideFlash s :=
  (if_pos ⟨hj, idle⟩).trans (if_neg hl)

end

/-! ### The sample in the cold wait (R102, R103) -/

section
variable {r : Reading} {s : State} {n : Nat} {g : Garment}

section
variable (ha : (alarm 6 s).present = false) (h : unpressed s = some (n, g)) (hj : s.ptr.flashJob = .cold)
include ha h hj

theorem sampleFlash_cold (hot : tooHot g.profile.tfMax (sampled r s) = false) : sampleFlash r s =
    if r.raw < g.profile.tfMin then sampled r s else closePress (sampled r s) := by
  have waits : unpressed (sampled r s) = some (n, g) := unpressed_sampled.trans h
  have absent : (alarm 6 (sampled r s)).present = false := ha
  rw [sampleFlash_some h, hot, reportCondition_again absent, flashWaitSample_cold waits hj, hot]
  by_cases low : r.raw < g.profile.tfMin
  · rw [if_pos ⟨rfl, low⟩, if_pos low]
  · rw [if_neg fun both => low both.2, if_neg low, decideFlash_good waits hot (Nat.not_lt.mp low),
      reportCondition_again absent]

/-- The hot wait begins, with an onset of FLASH_HOT (R103). -/
theorem sampleFlash_cold_hot (listed : 6 < s.alm.alarms.length)
    (hot : tooHot g.profile.tfMax (sampled r s) = true) :
    sampleFlash r s = beginHot (alarmed 6 Alarm.begun (sampled r s)) := by
  obtain ⟨v, hv⟩ : ∃ v, v = reportCondition 6 true (sampled r s) := ⟨_, rfl⟩
  have onset : v = alarmed 6 Alarm.begun (sampled r s) := by
    have absent : (alarm 6 (sampled r s)).present ≠ true := by
      show (alarm 6 s).present ≠ true
      rw [ha]; exact Bool.false_ne_true
    rw [hv, reportCondition_true, if_neg absent]
  have car : v.car = (sampled r s).car := by rw [hv]; simp
  have ptr : v.ptr = (sampled r s).ptr := by rw [hv]; simp
  have waits : unpressed v = some (n, g) := (unpressed_congr car (by rw [ptr])).trans (unpressed_sampled.trans h)
  have still : tooHot g.profile.tfMax v = true := (tooHot_congr ptr _).trans hot
  have present : (alarm 6 (beginHot v)).present = true := by
    have begun : alarm 6 v = (alarm 6 s).begun := by rw [onset]; exact alarm_alarmed (s := sampled r s) listed _
    rw [beginHot_alarm, begun]; rfl
  rw [sampleFlash_some h, hot, ← hv, flashWaitSample_cold waits (by rw [ptr]; exact hj), still,
    if_neg (by simp), decideFlash_hot waits still, reportCondition_again present, onset]

end

/-! ### The sample in the hot wait (R103, R105) -/

/-- `s` with a reading recorded, and FLASH_HOT ended (R103). -/
def cooled (r : Reading) (s : State) : State := reportCondition 6 false (sampled r s)

theorem cooled_eq (r : Reading) (s : State) : cooled r s =
    if (alarm 6 s).present = true then endedAt 6 (sampled r s) else sampled r s :=
  reportCondition_false _ _

theorem cooled_car : (cooled r s).car = s.car := by simp [cooled, sampled]
theorem cooled_ptr : (cooled r s).ptr = (sampled r s).ptr := by simp [cooled]

section
variable (h : unpressed s = some (n, g)) (hj : s.ptr.flashJob = .hot)
include h hj

theorem sampleFlash_hot_hot (hot : tooHot g.profile.tfMax (sampled r s) = true) : sampleFlash r s =
    if (alarm 6 s).present = true then sampled r s else alarmed 6 Alarm.begun (sampled r s) := by
  have onset := reportCondition_true 6 (sampled r s)
  obtain ⟨v, hv⟩ : ∃ v, v = reportCondition 6 true (sampled r s) := ⟨_, rfl⟩
  have car : v.car = (sampled r s).car := by rw [hv]; simp
  have ptr : v.ptr = (sampled r s).ptr := by rw [hv]; simp
  have waits : unpressed v = some (n, g) := (unpressed_congr car (by rw [ptr])).trans (unpressed_sampled.trans h)
  rw [sampleFlash_some h, hot, ← hv, flashWaitSample_hot waits (by rw [ptr]; exact hj),
    if_pos ((tooHot_congr ptr _).trans hot), hv, onset]
  rfl

theorem sampleFlash_hot_ended (hot : tooHot g.profile.tfMax (sampled r s) = false) :
    sampleFlash r s = endHotWait (cooled r s) := by
  have waits : unpressed (cooled r s) = some (n, g) := (unpressed_congr cooled_car (by rw [cooled_ptr]; rfl)).trans h
  have mild : tooHot g.profile.tfMax (cooled r s) = false := (tooHot_congr cooled_ptr _).trans hot
  rw [sampleFlash_some h, hot, ← cooled, flashWaitSample_hot waits (by rw [cooled_ptr]; exact hj), mild]
  rfl

end

theorem decideFlash_cooled (h : unpressed s = some (n, g))
    (hot : tooHot g.profile.tfMax (sampled r s) = false) : decideFlash (cooled r s) =
    if r.raw < g.profile.tfMin then beginCold (cooled r s) else closePress (cooled r s) := by
  have waits : unpressed (cooled r s) = some (n, g) := (unpressed_congr cooled_car (by rw [cooled_ptr]; rfl)).trans h
  have mild : tooHot g.profile.tfMax (cooled r s) = false := (tooHot_congr cooled_ptr _).trans hot
  have reading : (cooled r s).ptr.flashReading = r.raw := by rw [cooled_ptr]; rfl
  have ended : reportCondition 6 false (cooled r s) = cooled r s :=
    reportCondition_again (reportCondition_absent 6 _)
  by_cases low : r.raw < g.profile.tfMin
  · rw [if_pos low, decideFlash_cold waits mild (by rw [reading]; exact low), ended]
  · rw [if_neg low, decideFlash_good waits mild (by rw [reading]; exact Nat.not_lt.mp low), ended]

end

/-! ### The wait limit and the dwell (R102, R104) -/

section
variable {s : State} {n : Nat} {g : Garment}

theorem expireFlashWait_idle (h : s.ptr.flashJob ≠ .cold) : expireFlashWait s = s := by
  unfold expireFlashWait
  split
  · next hj _ => exact (h hj).elim
  · rfl

theorem expireDwell_idle (h : s.ptr.flashJob ≠ .pressing) : expireDwell s = s := by
  unfold expireDwell
  split
  · next hj _ => exact (h hj).elim
  · rfl

theorem expireFlashWait_cold (hj : s.ptr.flashJob = .cold) (hn : garmentAt .flash s = some n) : expireFlashWait s =
    alarmed 5 Alarm.passed (closePress (addWarning n .underdried s)) := by
  rw [← onset_mom]; simp [expireFlashWait, hj, hn]

theorem expireDwell_pressing (hj : s.ptr.flashJob = .pressing) (hn : garmentAt .flash s = some n)
    (hg : garment n s = some g) : expireDwell s = freed .flash
      (regarment n (fun h => { h with dwell := g.profile.dwell, stage := .flashed }) { s with ptr := { s.ptr with
        pressClosed := false, flashJob := .none, waitFrom := none, dwellFrom := none } }) := by
  simp only [expireDwell, hj, hn, hg, finishFlash, release_eq]
  congr 1
  simp [setStage, setDwell, withGarment, regarment, State.withCar, State.withPtr, tabMap_tabMap]

end

/-! ### The obligation -/

/-- Settles O51: the sample by the job of FLASH, then by what the reading and FLASH_HOT decide; the two expiries. -/
theorem flashPress : Obligations.FlashPress := by
  refine ⟨fun r s hs ha => ?_, fun r s n g hs hj hw hi hc hg hd => ?_, fun s => ⟨fun h => ?_, fun h => ?_,
    fun n g hi hc hg => ⟨fun hj => ?_, fun hj => ?_⟩⟩⟩
  · intro bad u
    refine ⟨fun idle => settled (sampleFlash_idle ha ?_), fun n g hj hw hi hc hg hd => ?_⟩
    · rcases idle with hj | hj | hw
      · exact unpressed_pressed (.inl hj)
      · exact unpressed_pressed (.inr hj)
      · exact unpressed_absent (.inl hw)
    have waits := unpressed_some hw (.inl hj) hi hc hg hd
    have hot := tooHot_sampled g.profile.tfMax r s
    have fine : ¬ bad → r.raw ≤ g.profile.tfMax → tooHot g.profile.tfMax (sampled r s) = false := fun hb hm =>
      Bool.eq_false_iff.mpr fun ht => (hot.mp ht).elim (hb ∘ .inl) (·.elim (hb ∘ .inr) (Nat.not_lt.mpr hm))
    refine ⟨fun hb high hm => settled ?_, fun hb low hm => settled ?_, fun hb => settled ?_⟩
    · exact (sampleFlash_cold ha waits hj (fine hb hm)).trans (if_neg (Nat.not_lt.mpr high))
    · exact (sampleFlash_cold ha waits hj (fine hb hm)).trans (if_pos low)
    · obtain ⟨-, -, -, -, -, -, size, -⟩ := hs
      rw [sampleFlash_cold_hot ha waits hj (by omega) (hot.mpr (or_assoc.mp hb)), beginHot, alarmed_withPtr]
      rfl
  · intro bad u w idle free
    have waits := unpressed_some hw (.inr hj) hi hc hg hd
    have hot : tooHot g.profile.tfMax (sampled r s) = true ↔ bad := tooHot_sampled g.profile.tfMax r s
    have fine : ¬ bad → tooHot g.profile.tfMax (sampled r s) = false := fun hb =>
      Bool.eq_false_iff.mpr (hb ∘ hot.mp)
    have ended : w = cooled r s := (cooled_eq r s).symm
    have still : (cooled r s).ptr.flashJob = .hot := by rw [cooled_ptr]; exact hj
    have owner : ownerIdle 6 (cooled r s) = true ↔ idle := by rw [ownerIdle_iff, ← ended]
    have line : (cooled r s).car.line = s.car.line := by rw [cooled_car]
    have decided : ¬ bad → free → sampleFlash r s =
        if r.raw < g.profile.tfMin then beginCold (cooled r s) else closePress (cooled r s) := fun hb hf => by
      rw [sampleFlash_hot_ended waits hj (fine hb),
        endHotWait_decides still (owner.mpr hf.2) (by rw [line]; exact hf.1),
        decideFlash_cooled waits (fine hb)]
    have clock : (cooled r s).clock = s.clock := by simp [cooled, sampled]
    have prf : (cooled r s).prf = s.prf := by simp [cooled, sampled]
    refine ⟨fun hb => settled (sampleFlash_hot_hot waits hj (hot.mpr hb)), fun hb hidle => settled ?_,
      fun hb hidle hl => settled ?_, fun hb hf low => settled ?_, fun hb hf high => settled ?_⟩
    · rw [sampleFlash_hot_ended waits hj (fine hb), endHotWait_waits (mt owner.mp hidle), ended]
    · rw [sampleFlash_hot_ended waits hj (fine hb), endHotWait_halted still (owner.mpr hidle) (line.trans hl), ended]
    · rw [decided hb hf, if_pos low, ended]; exact beginCold_at clock prf
    · rw [decided hb hf, if_neg (Nat.not_lt.mpr high), ended]; exact closePress_at clock
  · exact settled (expireFlashWait_idle h)
  · exact settled (expireDwell_idle h)
  · exact settled (expireFlashWait_cold hj (garmentAt_some hi hc))
  · exact settled (expireDwell_pressing hj (garmentAt_some hi hc) hg)

end Sys2Proof.Machine
end

section
/-!
O46. ALARM_ACK and DRILL_STEP: what an acknowledgement makes of a record (R199), what the owners of FLASH_HOT and ENCODER
do when their alarm becomes IDLE (R103, R105, R121), and the onsets and the end of a drill (R207, R208).
-/

namespace Sys2Proof.Machine

/-! ### One record changed -/

theorem alarmed_eq_noteAlarm (i : Nat) (f : Alarm → Alarm) (s : State) :
    alarmed i f s = noteAlarm i (withAlarm i f s) := rfl

/-- What becomes of a record is all that an alarm operation says: two changes that agree on it are one. -/
theorem withAlarm_congr {i : Nat} {f h : Alarm → Alarm} {s : State} (e : f (alarm i s) = h (alarm i s)) :
    withAlarm i f s = withAlarm i h s := by
  have table : s.alm.alarms.modify i f = s.alm.alarms.modify i h := by
    apply List.ext_getElem?
    intro j
    rw [List.getElem?_modify, List.getElem?_modify]
    by_cases hj : i = j
    · subst hj
      cases hr : s.alm.alarms[i]? with
      | none => rfl
      | some a => simpa [alarm, hr] using e
    · simp [hj]
  simp [withAlarm, listMap, State.withAlm, table]

theorem alarmed_congr {i : Nat} {f h : Alarm → Alarm} {s : State} (e : f (alarm i s) = h (alarm i s)) :
    alarmed i f s = alarmed i h s := by
  rw [alarmed_eq_noteAlarm, withAlarm_congr e, alarmed_eq_noteAlarm]

/-! ### The acknowledgement of a record (R199) -/

section
variable {i : Nat} {s : State}

theorem acknowledge_same (h : (alarm i s).state = .idle ∨
    (alarm i s).state = .active ∧ (alarm i s).acked = true ∧ senseAt i s = .edgeLevel) : acknowledge i s = s := by
  refine if_pos ?_
  rcases h with hi | ⟨hs, ha, he⟩
  · simp [Alarm.acknowledged, hi]
  · simp [Alarm.acknowledged, hs, ha, he]

theorem acknowledge_changed {f : Alarm → Alarm} (e : (alarm i s).acknowledged (senseAt i s) = f (alarm i s))
    (h : ¬ ((alarm i s).state = (f (alarm i s)).state ∧ (alarm i s).acked = (f (alarm i s)).acked)) :
    acknowledge i s = alarmed i f s := by
  rw [← e] at h
  exact (if_neg h).trans (alarmed_congr (f := fun _ => (alarm i s).acknowledged (senseAt i s)) e)

theorem acknowledge_acked (hs : (alarm i s).state = .active) (ha : (alarm i s).acked = false)
    (he : senseAt i s = .edgeLevel) : acknowledge i s = alarmed i (fun a => { a with acked := true }) s :=
  acknowledge_changed (by simp [Alarm.acknowledged, hs, he]) (by simp [ha])

theorem acknowledge_active (hs : (alarm i s).state = .active) (he : senseAt i s = .edge) : acknowledge i s =
    alarmed i (fun a => { a with state := .idle, acked := false, simulated := false }) s :=
  acknowledge_changed (by simp [Alarm.acknowledged, hs, he]) (by simp [hs])

theorem acknowledge_latched (hs : (alarm i s).state = .latched) : acknowledge i s =
    alarmed i (fun a => { a with state := .idle, simulated := false }) s :=
  acknowledge_changed (by simp [Alarm.acknowledged, hs]) (by simp [hs])

/-- An alarm that its owner does not hold as IDLE is in the table. -/
theorem listed_of_state (h : (alarm i s).state ≠ .idle) : i < s.alm.alarms.length :=
  alarm_listed fun e => h (by rw [e]; rfl)

theorem not_ownerIdle (hs : (alarm i s).state ≠ .idle) (hm : (alarm i s).simulated = false) :
    ownerIdle i s = false := by
  simp [ownerIdle, hs, hm]

/-! ### The owners (R201) -/

/-- Nobody is told where the owner holds the alarm as IDLE already, or does not after the acknowledgement. -/
theorem acknowledgeAt_untold (h : ownerIdle i s = true ∨ ownerIdle i (acknowledge i s) = false) :
    acknowledgeAt i s = acknowledge i s :=
  if_pos (by rcases h with h | h <;> simp [h])

theorem acknowledgeAt_flash (was : ownerIdle 6 s = false) (now : ownerIdle 6 (acknowledge 6 s) = true) :
    acknowledgeAt 6 s = endHotWait (acknowledge 6 s) :=
  if_neg (by simp [was, now])

theorem acknowledgeAt_encoder (was : ownerIdle 3 s = false) (now : ownerIdle 3 (acknowledge 3 s) = true) :
    acknowledgeAt 3 s = encoderIdle (acknowledge 3 s) :=
  if_neg (by simp [was, now])

/-- Acknowledged set on an ACTIVE alarm: it is still not IDLE. -/
theorem acknowledgeAt_acked (ha : (alarm i s).state = .active) (hk : (alarm i s).acked = false)
    (he : senseAt i s = .edgeLevel) : acknowledgeAt i s = alarmed i (fun a => { a with acked := true }) s := by
  have record : alarm i (alarmed i (fun a => { a with acked := true }) s) = { alarm i s with acked := true } :=
    alarm_alarmed (listed_of_state (by simp [ha])) _
  have done := acknowledge_acked ha hk he
  refine (acknowledgeAt_untold ?_).trans done
  rw [done, ownerIdle, ownerIdle, record, ha]
  exact Bool.eq_false_or_eq_true _

theorem acknowledgeAt_same (h : (alarm i s).state = .idle ∨
    (alarm i s).state = .active ∧ (alarm i s).acked = true ∧ senseAt i s = .edgeLevel) : acknowledgeAt i s = s := by
  have same := acknowledge_same h
  rw [acknowledgeAt_untold (by rw [same]; exact Bool.eq_false_or_eq_true _), same]

/-- No hot wait ends and no shuttle homes: the acknowledgement is all. -/
theorem acknowledgeAt_record (h3 : i = 3 → s.shf.shuttle ≠ .stopped)
    (h6 : i = 6 → s.ptr.flashJob ≠ .hot ∨ (alarm 6 s).simulated = true ∨
      s.car.line ≠ .halted ∧ (s.car.flash.working = false ∨ s.car.index ≠ .none ∨
        ∀ n, contentsAt .flash s ≠ .garment n)) :
    acknowledgeAt i s = acknowledge i s := by
  have frame := acknowledge_frame i s
  have car := frame.car rfl
  have ptr := frame.ptr rfl
  have shf := frame.shf rfl
  by_cases told : ownerIdle i s = true ∨ ownerIdle i (acknowledge i s) = false
  · exact acknowledgeAt_untold told
  obtain ⟨was, now⟩ := not_or.mp told
  rw [Bool.not_eq_true] at was
  rw [Bool.not_eq_false] at now
  by_cases hf : i = 6
  · subst hf
    rw [acknowledgeAt_flash was now]
    rcases h6 rfl with hj | hm | ⟨hl, idle⟩
    · exact if_neg fun both => hj (by rw [← ptr]; exact both.1)
    · rw [(ownerIdle_iff 6 s).mpr (.inr hm)] at was; cases was
    · by_cases hj : s.ptr.flashJob = .hot
      · rw [endHotWait_decides (by rw [ptr]; exact hj) now (by rw [car]; exact hl)]
        refine decideFlash_none ((unpressed_congr car (by rw [ptr])).trans (unpressed_absent ?_))
        exact idle.imp_right garmentAt_none
      · exact if_neg fun both => hj (by rw [← ptr]; exact both.1)
  · by_cases he : i = 3
    · subst he
      rw [acknowledgeAt_encoder was now]
      exact if_neg fun both => h3 rfl (by rw [← shf]; exact both.1)
    · unfold acknowledgeAt
      dsimp only
      rw [if_neg hf, if_neg he, ite_self]

end

/-! ### The request -/

theorem decideFlash_keepsShop (s : State) : KeepsShop s (decideFlash s) := by
  have waits : ∀ (u : State) (h : Hold) (p : Ptr → Ptr), (p u.ptr).tank = u.ptr.tank →
      KeepsShop u (setHold .flash h (u.withPtr p)) := fun u h p e =>
    have moved : KeepsShop u (u.withPtr p) := ⟨rfl, rfl, e, rfl, rfl, rfl, rfl⟩
    moved.trans (setHold_keepsShop .flash h _)
  have report := fun now u => reportCondition_keepsShop aFlashHot now u
  unfold decideFlash
  split
  · exact .refl s
  · split
    · exact (waits s _ _ rfl).trans (report true _)
    · dsimp only
      split
      · exact (report false s).trans (waits _ _ _ rfl)
      · exact (report false s).trans (waits _ _ _ rfl)

theorem acknowledge_keepsShop (i : Nat) (s : State) : KeepsShop s (acknowledge i s) := by
  have frame := acknowledge_frame i s
  refine ⟨frame.prf rfl, frame.pins rfl, by rw [frame.ptr rfl], by rw [frame.car rfl], by rw [frame.car rfl], ?_, ?_⟩
  all_goals
    unfold acknowledge
    dsimp only
    split
  · rfl
  · exact noteAlarm_configured _ _
  · rfl
  · rw [noteAlarm_others]; simp [withAlarm, listMap]

theorem acknowledgeAt_configured (i : Nat) (s : State) : (acknowledgeAt i s).lnk.configured = s.lnk.configured := by
  have told : ∀ u : State, (endHotWait u).lnk.configured = u.lnk.configured ∧
      (encoderIdle u).lnk.configured = u.lnk.configured := fun u => by
    refine ⟨?_, ?_⟩
    · rcases endHotWait_cases u with ⟨-, -, ⟨-, e⟩ | ⟨-, e⟩⟩ | ⟨-, e⟩ <;> rw [e]
      · rfl
      · exact (decideFlash_keepsShop u).configured
    · unfold encoderIdle
      repeat' split
      · exact (setHold_keepsShop .print .none u).configured
      all_goals rfl
  have record := (acknowledge_keepsShop i s).configured
  unfold acknowledgeAt
  dsimp only
  repeat' split
  · exact record
  · exact (told _).1.trans record
  · exact (told _).2.trans record
  · exact record

theorem exec_alarmAck {s : State} (hs : Reads s) (tag : Byte) (kind number count : Nat) :
    exec (.alarmAck tag kind number count) s = .next (take 0x51 tag (decideAck kind number count) s) :=
  congrArg _ (deliver_reads hs _)

theorem alarmAck_nowhere {kind number : Nat} {s : State} (hs : Reads s) (h : alarmIndex kind number = none) (tag : Byte)
    (count : Nat) : exec (.alarmAck tag kind number count) s = .next (replied 0x51 tag .range [] s) := by
  have decided : decideAck kind number count s = refuse .range s := by simp [decideAck, h]
  rw [exec_alarmAck hs, take_refused hs decided rfl]

section
variable {kind number i : Nat} {s : State} (hs : Reads s) (h : alarmIndex kind number = some i)
include hs h

theorem alarmAck_stale {count : Nat} (hc : (alarm i s).count ≠ count) (tag : Byte) :
    exec (.alarmAck tag kind number count) s = .next (replied 0x51 tag .stale [] s) := by
  have decided : decideAck kind number count s = refuse .stale s := by simp [decideAck, h, hc]
  rw [exec_alarmAck hs, take_refused hs decided rfl]

/-- An acknowledgement taken: what the record and its owner become is all there is to say. -/
theorem alarmAck_taken {count : Nat} {v : State} (hc : (alarm i s).count = count) (e : acknowledgeAt i s = v)
    (tag : Byte) : ∃ t, exec (.alarmAck tag kind number count) s = .next t ∧ Onward (replied 0x51 tag .ok [] v) t := by
  have decided : decideAck kind number count s = accept false (advance (acknowledgeAt i s)) := by
    simp [decideAck, h, hc]
  have kept := (advance_onward (acknowledgeAt i s)).1.keepsShop.configured.trans (acknowledgeAt_configured i s)
  refine ⟨_, (exec_alarmAck hs tag kind number count).trans (congrArg _ (take_accepted hs decided kept)), ?_⟩
  rw [← e]
  exact (advance_onward _).1.replied _ _ _ _

end

/-! ### FLASH_HOT (R103, R105) -/

/-- `s` with FLASH_HOT IDLE after its acknowledgement in a hot wait. -/
def hotAcked (s : State) : State :=
  alarmed 6 (fun a => { a with state := .idle, acked := if a.state = .active then false else a.acked }) s

section
variable {s : State} (hs : (alarm 6 s).state = .latched ∨ (alarm 6 s).state = .active ∧ senseAt 6 s = .edge)
  (hm : (alarm 6 s).simulated = false)
include hs

theorem hotAcked_alarm : alarm 6 (hotAcked s) = { alarm 6 s with
    state := .idle, acked := if (alarm 6 s).state = .active then false else (alarm 6 s).acked } :=
  alarm_alarmed (listed_of_state (by rcases hs with h | ⟨h, -⟩ <;> simp [h])) _

/-- The condition of FLASH_HOT after the acknowledgement, ended (R103). -/
theorem hotEnded_eq : reportCondition 6 false (hotAcked s) =
    if (alarm 6 s).present = true then endedAt 6 (hotAcked s) else hotAcked s := by
  rw [reportCondition_false, hotAcked_alarm hs]

include hm

theorem acknowledge_hot : acknowledge 6 s = hotAcked s := by
  refine acknowledge_changed ?_ ?_
  · rcases hs with h | ⟨h, he⟩
    · simp [Alarm.acknowledged, h, hm]
    · simp [Alarm.acknowledged, h, he, hm]
  · rcases hs with h | ⟨h, -⟩ <;> simp [h]

theorem acknowledgeAt_hot : acknowledgeAt 6 s = endHotWait (hotAcked s) := by
  have was : ownerIdle 6 s = false := not_ownerIdle (by rcases hs with h | ⟨h, -⟩ <;> simp [h]) hm
  have now : ownerIdle 6 (hotAcked s) = true := (ownerIdle_iff 6 _).mpr (.inl (by rw [hotAcked_alarm hs]))
  rw [acknowledgeAt_flash was (by rw [acknowledge_hot hs hm]; exact now), acknowledge_hot hs hm]

theorem hotAcked_frame : Touches [.lnk, .alm] s (hotAcked s) := acknowledge_hot hs hm ▸ acknowledge_frame 6 s

theorem acknowledgeAt_hot_halted (hj : s.ptr.flashJob = .hot) (hl : s.car.line = .halted) : acknowledgeAt 6 s =
    { hotAcked s with ptr := { (hotAcked s).ptr with hotOver := true } } := by
  have frame := hotAcked_frame hs hm
  rw [acknowledgeAt_hot hs hm]
  exact endHotWait_halted (by rw [frame.ptr rfl]; exact hj) ((ownerIdle_iff 6 _).mpr (.inl (by rw [hotAcked_alarm hs])))
    (by rw [frame.car rfl]; exact hl)

section
variable {n : Nat} {g : Garment} (h : unpressed s = some (n, g)) (hj : s.ptr.flashJob = .hot)
  (hl : s.car.line ≠ .halted)
include h hj hl

/-- A hot wait outside HALTED is decided again by the latest reading (R103). -/
theorem acknowledgeAt_hot_decided : acknowledgeAt 6 s =
    if tooHot g.profile.tfMax s = true then
      (if (alarm 6 s).present = true then id else alarmed 6 Alarm.begun) (beginHot (hotAcked s))
    else if s.ptr.flashReading < g.profile.tfMin then beginCold (reportCondition 6 false (hotAcked s))
    else closePress (reportCondition 6 false (hotAcked s)) := by
  have frame := hotAcked_frame hs hm
  have ptr := frame.ptr rfl
  have car := frame.car rfl
  have idle := (ownerIdle_iff 6 (hotAcked s)).mpr (.inl (by rw [hotAcked_alarm hs]))
  have waits : unpressed (hotAcked s) = some (n, g) := (unpressed_congr car (by rw [ptr])).trans h
  have same := tooHot_congr ptr g.profile.tfMax
  rw [acknowledgeAt_hot hs hm, endHotWait_decides (by rw [ptr]; exact hj) idle (by rw [car]; exact hl)]
  by_cases hot : tooHot g.profile.tfMax s = true
  · have present : (alarm 6 (beginHot (hotAcked s))).present = (alarm 6 s).present := by
      rw [beginHot_alarm, hotAcked_alarm hs]
    rw [if_pos hot, decideFlash_hot waits (same.trans hot), reportCondition_true, present]
    split <;> rfl
  · have mild := same.trans (Bool.eq_false_iff.mpr hot)
    rw [if_neg hot]
    by_cases low : s.ptr.flashReading < g.profile.tfMin
    · rw [if_pos low, decideFlash_cold waits mild (by rw [ptr]; exact low)]
    · rw [if_neg low, decideFlash_good waits mild (by rw [ptr]; exact Nat.not_lt.mp low)]

end

end

/-! ### ENCODER (R121) -/

/-- `s` with ENCODER IDLE after its acknowledgement. -/
def encoderAcked (s : State) : State := alarmed 3 (fun a => { a with state := .idle, simulated := false }) s

/-- A homing from `u`, at the setting and the time of `s`. -/
def homingFrom (s u : State) : State :=
  { u with shf := { u.shf with shuttle := .homing, speed := s.prf.line.shuttleSpeed, noSignal := some s.clock } }

theorem startHoming_eq {s u : State} (hp : u.prf = s.prf) (hc : u.clock = s.clock) :
    startHoming u = homingFrom s u := by
  simp [startHoming, moveShuttle, homingFrom, State.withShf, hp, hc]

section
variable {u : State} (hst : u.shf.shuttle = .stopped) (now : ownerIdle 3 u = true)
include hst now

theorem encoderIdle_held (hj : u.shf.job = .held) : encoderIdle u = if lineMoves u = true then homeHeld u else u := by
  rw [encoderIdle, if_pos ⟨hst, now⟩, hj]

theorem encoderIdle_free (hj : u.shf.job = .none ∨ u.shf.job = .waiting) :
    encoderIdle u = if u.car.line = .halted then u else startHoming u := by
  rw [encoderIdle, if_pos ⟨hst, now⟩]
  rcases hj with hj | hj <;> rw [hj]

end

section
variable {s : State} (hl : (alarm 3 s).state = .latched)
include hl

theorem acknowledge_encoder : acknowledge 3 s = encoderAcked s := acknowledge_latched hl

theorem encoderAcked_frame : Touches [.lnk, .alm] s (encoderAcked s) := acknowledge_encoder hl ▸ acknowledge_frame 3 s

theorem encoderAcked_idle : ownerIdle 3 (encoderAcked s) = true := by
  have record : alarm 3 (encoderAcked s) = { alarm 3 s with state := .idle, simulated := false } :=
    alarm_alarmed (listed_of_state (by simp [hl])) _
  exact (ownerIdle_iff 3 _).mpr (.inl (by rw [record]))

theorem acknowledgeAt_encoder_simulated (hm : (alarm 3 s).simulated = true) : acknowledgeAt 3 s = encoderAcked s :=
  (acknowledgeAt_untold (.inl ((ownerIdle_iff 3 s).mpr (.inr hm)))).trans (acknowledge_encoder hl)

section
variable (hm : (alarm 3 s).simulated = false) (hst : s.shf.shuttle = .stopped)
include hm hst

/-- With a HELD print the shuttle homes where the line moves (R121). -/
theorem acknowledgeAt_encoder_held (hj : s.shf.job = .held) : acknowledgeAt 3 s =
    if lineMoves s = true then homingFrom s (setHold .print .none (encoderAcked s)) else encoderAcked s := by
  have frame := encoderAcked_frame hl
  have hold := setHold_frame .print .none (encoderAcked s)
  have shf := frame.shf rfl
  have now := encoderAcked_idle hl
  have held : homeHeld (encoderAcked s) = homingFrom s (setHold .print .none (encoderAcked s)) :=
    startHoming_eq ((hold.prf rfl).trans (frame.prf rfl)) (hold.clock.trans frame.clock)
  have moves : lineMoves (encoderAcked s) = lineMoves s := by simp only [lineMoves, frame.car rfl]
  rw [acknowledgeAt_encoder (not_ownerIdle (by simp [hl]) hm) (by rw [acknowledge_encoder hl]; exact now),
    acknowledge_encoder hl, encoderIdle_held (by rw [shf]; exact hst) now (by rw [shf]; exact hj), moves, held]

/-- With no print begun the shuttle homes outside HALTED (R121). -/
theorem acknowledgeAt_encoder_free (hj : s.shf.job = .none ∨ s.shf.job = .waiting) : acknowledgeAt 3 s =
    if s.car.line = .halted then encoderAcked s else homingFrom s (encoderAcked s) := by
  have frame := encoderAcked_frame hl
  have shf := frame.shf rfl
  have now := encoderAcked_idle hl
  rw [acknowledgeAt_encoder (not_ownerIdle (by simp [hl]) hm) (by rw [acknowledge_encoder hl]; exact now),
    acknowledge_encoder hl, encoderIdle_free (by rw [shf]; exact hst) now (by rw [shf]; exact hj), frame.car rfl,
    startHoming_eq (frame.prf rfl) frame.clock]

end

end

/-! ### DRILL_STEP (R207, R208) -/

/-- `t` differs from `s` in ALM by its alarm records alone. -/
def RecordsOnly (s t : State) : Prop := { t.alm with alarms := s.alm.alarms } = s.alm

theorem RecordsOnly.refl (s : State) : RecordsOnly s s := rfl

theorem RecordsOnly.trans {s t u : State} (h : RecordsOnly s t) (k : RecordsOnly t u) : RecordsOnly s u := by
  unfold RecordsOnly at *
  rw [← h, ← k]

theorem RecordsOnly.foldl {f : State → Nat → State} (h : ∀ s i, RecordsOnly s (f s i)) (l : List Nat) (s : State) :
    RecordsOnly s (l.foldl f s) := by
  induction l generalizing s with
  | nil => exact .refl s
  | cons i l ih => exact (h s i).trans (ih _)

theorem noteAlarm_withAlarm_records (i : Nat) (f : Alarm → Alarm) (s : State) :
    RecordsOnly s (noteAlarm i (withAlarm i f s)) := by
  rw [noteAlarm_others]; rfl

theorem simulate_records (s : State) (i : Nat) : RecordsOnly s (simulate i s) := by
  unfold simulate
  split
  · exact noteAlarm_withAlarm_records _ _ _
  · exact .refl s

theorem unsimulate_records (s : State) (i : Nat) : RecordsOnly s (unsimulate i s) := by
  unfold unsimulate
  split
  · exact noteAlarm_withAlarm_records _ _ _
  · exact .refl s

theorem simulate_more (i : Nat) (s : State) : NotesMore s (simulate i s) := by
  unfold simulate
  split
  · exact (NotesMore.of_eq (t := withAlarm i _ s) rfl).trans (noteAlarm_more _ _)
  · exact .refl s

theorem simulate_length (i : Nat) (s : State) : (simulate i s).alm.alarms.length = s.alm.alarms.length := by
  unfold simulate
  split
  · rw [noteAlarm_others]; simp [withAlarm, listMap]
  · rfl

/-- Every alarm record after the simulated onsets of a list (R207). -/
theorem alarm_foldl_simulate (l : List Nat) (j : Nat) (s : State) (h : ∀ i ∈ l, i < s.alm.alarms.length) :
    alarm j (l.foldl (fun t i => simulate i t) s) =
      if j ∈ l ∧ (alarm j s).state = .idle then { alarm j s with
        state := .latched, acked := false, count := min 255 ((alarm j s).count + 1), simulated := true }
      else alarm j s := by
  induction l generalizing s with
  | nil => simp
  | cons i l ih =>
    have listed : i < s.alm.alarms.length := h i List.mem_cons_self
    have rest : ∀ k ∈ l, k < (simulate i s).alm.alarms.length := fun k hk => by
      rw [simulate_length]; exact h k (List.mem_cons_of_mem i hk)
    rw [List.foldl_cons, ih (simulate i s) rest, alarm_simulate]
    by_cases hj : j = i
    · subst hj
      by_cases idle : (alarm j s).state = .idle <;> simp [listed, idle]
    · simp [hj]

/-- `s` with the drill at its next step, before the onsets of that step. -/
def drilled (s : State) : State := s.withAlm fun a => { a with drill := a.drill + 1 }

theorem stepDrill_on {s : State} (h : s.alm.drill ≠ 7) : stepDrill s =
    (drillOnsets (s.alm.drill + 1)).foldl (fun t i => simulate i t) (drilled s) :=
  if_neg h

theorem stepDrill_end {s : State} (h : s.alm.drill = 7) : stepDrill s = endDrill s :=
  if_pos h

/-- A drill step changes of ALM the alarm records and the step alone. -/
theorem stepDrill_alm (s : State) :
    { (stepDrill s).alm with alarms := s.alm.alarms, drill := s.alm.drill } = s.alm := by
  have aside : ∀ u, RecordsOnly u (stepDrill s) → { u.alm with drill := s.alm.drill } = s.alm →
      { (stepDrill s).alm with alarms := s.alm.alarms, drill := s.alm.drill } = s.alm := fun u h k => by
    have load := congrArg Alm.load h
    have entry := congrArg Alm.entry h
    have exit := congrArg Alm.exit h
    rw [← k]
    dsimp only at load entry exit ⊢
    rw [load, entry, exit]
  by_cases h : s.alm.drill = 7
  · refine aside (s.withAlm fun a => { a with drill := 0 }) ?_ rfl
    rw [stepDrill_end h]
    exact RecordsOnly.foldl (fun s i => unsimulate_records s i) _ _
  · refine aside (drilled s) ?_ rfl
    rw [stepDrill_on h]
    exact RecordsOnly.foldl (fun s i => simulate_records s i) _ _

theorem stepDrill_more (s : State) : NotesMore s (stepDrill s) := by
  have onsets : ∀ (l : List Nat) (u : State), NotesMore u (l.foldl (fun t i => simulate i t) u) := fun l => by
    induction l with
    | nil => exact fun u => .refl u
    | cons i l ih => exact fun u => (simulate_more i u).trans (ih _)
  by_cases h : s.alm.drill = 7
  · rw [stepDrill_end h]; exact endDrill_more s
  · rw [stepDrill_on h]; exact (NotesMore.of_eq rfl).trans (onsets _ (drilled s))

/-- A state that differs from `s` in LNK and ALM alone. -/
theorem Touches.restored_alarms {s t : State} (h : Touches [.lnk, .alm] s t) :
    { t with lnk := s.lnk, alm := s.alm } = s := by
  have whole : { t with lnk := s.lnk, ord := s.ord, ims := s.ims, alm := s.alm } = s :=
    (Touches.step (.refl [.lnk, .ord, .ims, .alm] s) h rfl).restored
  rw [← h.ord rfl, ← h.ims rfl] at whole
  exact whole

theorem exec_drillStep {s : State} (hs : Reads s) (tag : Byte) :
    exec (.drillStep tag) s = .next (take 0x52 tag decideDrill s) :=
  congrArg _ (deliver_reads hs _)

section
variable {s : State} (hs : Reads s) (tag : Byte)
include hs

theorem drillStep_refused (h : ¬ (s.car.line = .idle ∨ s.car.line = .stopped)) :
    exec (.drillStep tag) s = .next (replied 0x52 tag .state [] s) := by
  have decided : decideDrill s = refuse .state s := if_neg h
  rw [exec_drillStep hs, take_refused hs decided rfl]

theorem drillStep_taken (h : s.car.line = .idle ∨ s.car.line = .stopped) :
    exec (.drillStep tag) s = .next (replied 0x52 tag .ok [] (stepDrill s)) := by
  have decided : decideDrill s = accept false (stepDrill s) := if_pos h
  obtain ⟨configured, -⟩ := (stepDrill_more s).cfg
  rw [exec_drillStep hs, take_accepted hs decided configured]
  rfl

end

theorem drillOnsets_listed (d : Nat) : ∀ i ∈ drillOnsets d, i < 22 := by
  unfold drillOnsets
  split <;> decide

theorem alarm_stepDrill_on {s : State} (h : s.alm.drill ≠ 7) (size : s.alm.alarms.length = 22) (i : Nat) :
    alarm i (stepDrill s) = if i ∈ drillOnsets (s.alm.drill + 1) ∧ (alarm i s).state = .idle then { alarm i s with
        state := .latched, acked := false, count := min 255 ((alarm i s).count + 1), simulated := true }
      else alarm i s := by
  rw [stepDrill_on h]
  exact alarm_foldl_simulate _ i (drilled s) fun k hk => (drillOnsets_listed _ k hk).trans_eq size.symm

/-- A drill step as R207 and R208 give it, on every alarm record. -/
theorem alarm_stepDrill {s : State} (size : s.alm.alarms.length = 22) {i : Nat} (hi : i < 22) :
    alarm i (stepDrill s) =
      if s.alm.drill = 7 then
        if (alarm i s).simulated = true then { alarm i s with state := .idle, acked := false, simulated := false }
        else alarm i s
      else if i ∈ drillOnsets (s.alm.drill + 1) ∧ (alarm i s).state = .idle then { alarm i s with
        state := .latched, acked := false, count := min 255 ((alarm i s).count + 1), simulated := true }
      else alarm i s := by
  by_cases h : s.alm.drill = 7
  · rw [if_pos h, stepDrill_end h, alarm_endDrill s i hi]
  · rw [if_neg h, alarm_stepDrill_on h size]

theorem stepDrill_step {s : State} (hd : s.alm.drill ≤ 7) :
    (stepDrill s).alm.drill = (s.alm.drill + 1) % 8 := by
  by_cases h : s.alm.drill = 7
  · rw [stepDrill_end h, endDrill_drill, h]
  · have kept := RecordsOnly.foldl (fun s i => simulate_records s i) (drillOnsets (s.alm.drill + 1)) (drilled s)
    rw [← stepDrill_on h] at kept
    have step := congrArg Alm.drill kept
    have next : (drilled s).alm.drill = s.alm.drill + 1 := rfl
    dsimp only at step
    omega

/-! ### The obligation -/

/-- Settles O46: an acknowledgement by what `acknowledgeAt` makes of the state, a drill step by the closed form of its
alarm records. -/
theorem acknowledgementAndDrill : Obligations.AcknowledgementAndDrill := by
  refine ⟨fun tag kind number count s hs => ⟨fun h => alarmAck_nowhere hs h tag count, fun i h => ⟨fun hc =>
    alarmAck_stale hs h hc tag, fun hc => ⟨fun same => ?_, fun ha hk he => ?_, fun h3 h6 => ?_⟩, ?_, ?_, ?_⟩⟩,
    fun tag s hs => ?_⟩
  · exact alarmAck_taken hs h hc (acknowledgeAt_same same) tag
  · exact alarmAck_taken hs h hc (acknowledgeAt_acked ha hk he) tag
  · have record := acknowledgeAt_record h3 h6
    exact ⟨fun ha he => alarmAck_taken hs h hc (record.trans (acknowledge_active ha he)) tag,
      fun hl => alarmAck_taken hs h hc (record.trans (acknowledge_latched hl)) tag⟩
  · rintro rfl hc hst hm hj hl acked
    exact alarmAck_taken hs h hc (acknowledgeAt_hot_halted hst hm hj hl) tag
  · rintro n g rfl - hc hst hm hj hl hw hi hn hg hd bad acked good
    have frame := hotAcked_frame hst hm
    have hot : tooHot g.profile.tfMax s = true ↔ bad := tooHot_iff _ _
    have decided := acknowledgeAt_hot_decided hst hm (unpressed_some hw (.inr hj) hi hn hg hd) hj hl
    have ended : good = reportCondition 6 false (hotAcked s) := (hotEnded_eq hst).symm
    have clock : good.clock = s.clock := by rw [ended]; simp [frame.clock]
    have prf : good.prf = s.prf := by rw [ended]; simp [frame.prf rfl]
    rw [← ended] at decided
    refine ⟨fun hb => alarmAck_taken hs h hc ?_ tag, fun hb low => alarmAck_taken hs h hc ?_ tag,
      fun hb high => alarmAck_taken hs h hc ?_ tag⟩
    · rw [decided, if_pos (hot.mpr hb), beginHot_again (by rw [frame.ptr rfl]; exact hj)]; rfl
    · rw [decided, if_neg (mt hot.mp hb), if_pos low, beginCold_at clock prf]
    · rw [decided, if_neg (mt hot.mp hb), if_neg (Nat.not_lt.mpr high), closePress_at clock]
  · rintro rfl hc hst w homing moves hl
    refine ⟨fun stays => alarmAck_taken hs h hc ?_ tag, fun _ hm hj hmv => alarmAck_taken hs h hc ?_ tag,
      fun _ hm hj hnh => alarmAck_taken hs h hc ?_ tag⟩
    · by_cases hm : (alarm 3 s).simulated = true
      · exact acknowledgeAt_encoder_simulated hl hm
      rw [Bool.not_eq_true] at hm
      rcases stays with hm' | ⟨hj, still⟩ | ⟨hj, halted⟩
      · rw [hm] at hm'; cases hm'
      · exact (acknowledgeAt_encoder_held hl hm hst hj).trans (if_neg (mt (lineMoves_iff s).mp still))
      · exact (acknowledgeAt_encoder_free hl hm hst hj).trans (if_pos halted)
    · exact (acknowledgeAt_encoder_held hl hm hst hj).trans (if_pos ((lineMoves_iff s).mpr hmv))
    · exact (acknowledgeAt_encoder_free hl hm hst hj).trans (if_neg hnh)
  · intro named
    refine ⟨drillStep_refused hs tag, fun line hd shaped => ⟨_, drillStep_taken hs tag line, stepDrill_step hd, ?_, rfl,
      (stepDrill_frame s).restored_alarms, stepDrill_alm s⟩⟩
    obtain ⟨-, -, -, -, -, -, size, -⟩ := shaped
    intro i hi
    refine (alarm_stepDrill size hi).trans ?_
    by_cases h7 : s.alm.drill = 7
    · rw [if_pos h7, if_pos h7]
    · have table : drillOnsets (s.alm.drill + 1) = named := by
        dsimp only [named]
        generalize s.alm.drill = step at *
        interval_cases step <;> rfl
      rw [if_neg h7, if_neg h7, table]

end Sys2Proof.Machine
end

section
/-!
SUPPORT. The start of a spit and of a stroke (R111, R128, R139, R140): Print active, the drops of a spit, and the stroke
state that FDP sets up.
-/

namespace Sys2Proof.Machine

/-! ### Print active (R41, R139, R141) -/

/-- IMS with Print active set or cleared on the image of garment `n`, where it names one (R41). -/
def printMarked (n : Nat) (on : Bool) (s : State) : Ims :=
  match ((garment n s).bind Garment.image).bind fun id => imageOf id s with
  | some (k, _) => { s.ims with images := tabMap k (fun i => { i with printActive := on }) s.ims.images }
  | none => s.ims

theorem setPrintActive_eq (n : Nat) (on : Bool) (s : State) :
    setPrintActive n on s = { s with ims := printMarked n on s } := by
  rw [setPrintActive, printMarked]
  cases hi : (garment n s).bind Garment.image with
  | none => rfl
  | some id => cases hm : imageOf id s <;> simp [hm, withImageId, withImage, State.withIms]

theorem printMarked_congr {n : Nat} {s t : State} (hi : t.ims = s.ims)
    (hg : (garment n t).bind Garment.image = (garment n s).bind Garment.image) (on : Bool) :
    printMarked n on t = printMarked n on s := by
  simp only [printMarked, hg, imageOf, hi]

section
variable {n : Nat} {g : Garment} {s : State} (hg : garment n s = some g) (on : Bool)
include hg

theorem printMarked_none (h : (g.image.bind fun id => imageOf id s) = none) : printMarked n on s = s.ims := by
  simp [printMarked, hg, h]

theorem printMarked_some {id k : Nat} {im : Image} (hi : g.image = some id) (hm : imageOf id s = some (k, im)) :
    printMarked n on s = { s.ims with images := tabMap k (fun i => { i with printActive := on }) s.ims.images } := by
  simp [printMarked, hg, hi, hm]

end

/-! ### The spit (R139, R140) -/

theorem mem_spitChannels {p : SpitSettings} {c ch d : Nat} : (ch, d) ∈ spitChannels p c ↔
    ch < 5 ∧ p.counts[ch]? = some d ∧ 0 < d ∧ ∃ m, p.masks[ch]? = some m ∧ m.getLsbD c = true := by
  simp only [spitChannels, List.mem_filterMap, List.mem_range]
  constructor
  · rintro ⟨x, hx, h⟩
    split at h
    · next fires =>
      cases h
      obtain ⟨hm, hd⟩ := fires
      cases mask : p.masks[ch]? with
      | none => simp [mask] at hm
      | some m =>
        cases count : p.counts[ch]? with
        | none => simp [count] at hd
        | some d => exact ⟨hx, by simp, by simpa [count] using hd, m, rfl, by simpa [mask] using hm⟩
    · cases h
  · rintro ⟨hx, count, hd, m, mask, hm⟩
    exact ⟨ch, hx, by simp [count, mask, hd, hm]⟩

/-- What a nozzle spits, OK or WEAK (R125, R140). -/
theorem spitDrop_eq_some {f : Option NozzleFault} {v : FireValue} :
    spitDrop f = some v ↔ f = none ∧ v = .drop 3 ∨ f = some .weak ∧ v = .drop 2 := by
  rcases f with _ | _ | _ <;> simp [spitDrop, eq_comm]

theorem mem_spitValues {k : Spit} {x : Nat} {v : FireValue} : (x, v) ∈ k.values ↔
    ∃ ch d r p, (ch, d) ∈ k.channels ∧ r < 2 ∧ p < 4800 ∧ x = nozzleNumber ch r p ∧
      spitDrop (nozzleState k.map x) = some v := by
  simp only [Spit.values, List.mem_flatMap, List.mem_filterMap, List.mem_range, Option.map_eq_some_iff]
  constructor
  · rintro ⟨⟨ch, d⟩, hc, r, hr, p, hp, w, hw, h⟩
    cases h
    exact ⟨ch, d, r, p, hc, hr, hp, rfl, hw⟩
  · rintro ⟨ch, d, r, p, hc, hr, hp, rfl, hw⟩
    exact ⟨(ch, d), hc, r, hr, p, hp, v, hw, rfl⟩

/-- The spit that starts in `s` (R139). -/
def spitOf (s : State) : Spit := { channels := spitChannels s.prf.spit s.fdp.spitCounter, map := s.fdp.nozzles }

/-- `s` where the print of garment `n` has begun with its spit (R110, R139, R140). -/
def spitting (n : Nat) (s : State) : State :=
  { s with
    ims := printMarked n true s
    shf := { s.shf with job := .spit, begun := true }
    fdp := { s.fdp with
      spit := some (spitOf s), head := [{ line := none, values := (spitOf s).values }]
      spitCounter := (s.fdp.spitCounter + 1) % s.prf.spit.period } }

theorem startSpit_eq (n : Nat) (s : State) :
    startSpit n (s.withShf fun f => { f with job := .spit, begun := true }) = spitting n s := by
  rw [startSpit, setPrintActive_eq]
  rfl

theorem startPrint_begins {n : Nat} {s : State} (hj : s.shf.job = .waiting)
    (hl : s.car.line = .running ∨ s.car.line = .draining) (hh : s.shf.shuttle = .home)
    (hg : garmentAt .print s = some n) : startPrint s =
      if (spitOf s).channels = [] then completeSpit (spitting n s) else spitting n s := by
  simp only [startPrint, hg, hj, (lineMoves_iff s).mpr hl, hh, and_self, if_true, startSpit_eq]
  rfl

/-- No print begins but with a planned garment at PRINT, the line moving and the shuttle HOME (R110). -/
theorem startPrint_stays {s : State} (h : ¬ (s.shf.job = .waiting ∧ (s.car.line = .running ∨ s.car.line = .draining) ∧
    s.shf.shuttle = .home) ∨ garmentAt .print s = none) : startPrint s = s := by
  unfold startPrint
  split
  · next n hn =>
    have barred := h.resolve_right (by simp [hn])
    exact if_neg fun ⟨hj, hl, hh⟩ => barred ⟨hj, (lineMoves_iff s).mp hl, hh⟩
  · rfl

/-! ### The stroke state and the stroke's start (R111, R128) -/

theorem mem_drivenNozzles {stroke x : Nat} :
    x ∈ drivenNozzles stroke ↔ if stroke = 1 then x < 9600 else 9600 ≤ x ∧ x < 48000 := by
  unfold drivenNozzles
  split
  · exact List.mem_range
  · simp only [List.mem_map, List.mem_range]
    exact ⟨fun ⟨y, hy, e⟩ => by omega, fun h => ⟨x - 9600, by omega, by omega⟩⟩

theorem startStrokeState_begun (j n : Nat) (s : State) :
    ∃ k, startStrokeState j n s = { s with fdp := { s.fdp with stroke := some k } } ∧ strokeBegun j n s k := by
  refine ⟨_, rfl, rfl, rfl, rfl, rfl, rfl, rfl, rfl, fun x v => ?_, fun g hg => ?_⟩
  · simp only [List.mem_filterMap, mem_drivenNozzles, moduleOf]
    constructor
    · rintro ⟨y, hy, h⟩
      obtain ⟨counted, rest⟩ := Option.ite_none_left_eq_some.mp h
      cases rest
      exact ⟨rfl, hy, fun dead => counted (.inl dead), by simpa using fun exempt => counted (.inr exempt)⟩
    · rintro ⟨rfl, hx, alive, counted⟩
      exact ⟨x, hx, by simp [alive, counted]⟩
  · simp only [hg]
    rfl

/-- What a stroke's start reads of the state. -/
theorem strokeBegun_congr {j n : Nat} {s t : State} {k : Stroke} (hn : t.fdp.nozzles = s.fdp.nozzles)
    (hp : t.prf = s.prf) (hc : t.car = s.car) (h : strokeBegun j n t k) : strokeBegun j n s k := by
  simpa only [strokeBegun, garment, hn, hp, hc] using h

theorem startStroke_begins {j n : Nat} {rest : List Nat} {s : State} (hp : s.shf.plan.strokes = j :: rest)
    (hg : garmentAt .print s = some n) :
    ∃ k, startStroke s = { s with shf := strokeRecord j s, fdp := { s.fdp with stroke := some k } } ∧
      strokeBegun j n s k := by
  obtain ⟨k, started, begun⟩ := startStrokeState_begun j n { s with shf := { strokeRecord j s with
    shuttle := s.shf.shuttle, noSignal := s.shf.noSignal } }
  refine ⟨k, ?_, strokeBegun_congr (t := { s with shf := _ }) rfl rfl rfl begun⟩
  simp only [startStroke, hp, hg]
  exact congrArg (moveShuttle .forward) started

theorem completeSpit_begins {j n : Nat} {rest : List Nat} {s : State} (hj : s.shf.job = .spit)
    (hs : s.fdp.spit.isSome = true) (hp : s.shf.plan.strokes = j :: rest) (hg : garmentAt .print s = some n) :
    ∃ k, completeSpit s =
        { s with shf := strokeRecord j s, fdp := { s.fdp with spit := none, head := [], stroke := some k } } ∧
      strokeBegun j n s k := by
  obtain ⟨k, started, begun⟩ := startStroke_begins (s := { s with fdp := { s.fdp with spit := none, head := [] } }) hp hg
  refine ⟨k, ?_, strokeBegun_congr (t := { s with fdp := _ }) rfl rfl rfl begun⟩
  rw [completeSpit, if_pos ⟨hj, hs⟩]
  exact started

/-- What the first stroke's start leaves of the print that has begun. -/
theorem completeSpit_keepsPrint (s : State) : (completeSpit s).shf.begun = s.shf.begun ∧
    (completeSpit s).shf.plan = s.shf.plan ∧ (completeSpit s).fdp.spitCounter = s.fdp.spitCounter := by
  unfold completeSpit startStroke
  repeat' split
  all_goals exact ⟨rfl, rfl, rfl⟩

theorem completeSpit_stays {s : State} (h : s.shf.job ≠ .spit ∨ s.fdp.spit = none) : completeSpit s = s :=
  if_neg fun ⟨hj, hs⟩ => h.elim (· hj) fun none => by simp [none] at hs

end Sys2Proof.Machine
end

section
/-!
O52. PRINT_START and SPIT_COMPLETE (R110, R111, R128, R139, R140).
-/

namespace Sys2Proof.Machine

/-- A state that differs from `s` in LNK, IMS, SHF and FDP alone. -/
theorem Touches.restored_print {s t : State} (h : Touches [.lnk, .ims, .shf, .fdp] s t) :
    { t with lnk := s.lnk, ims := s.ims, shf := s.shf, fdp := s.fdp } = s := by
  obtain ⟨clock, pending, pins, -, ord, -, prf, car, ptr, -, -, ctc, exs, alm⟩ := h
  cases s
  cases t
  simp_all

section
variable {n : Nat} {s : State} (hj : s.shf.job = .waiting) (hl : s.car.line = .running ∨ s.car.line = .draining)
  (hh : s.shf.shuttle = .home) (hg : garmentAt .print s = some n)
include hj hl hh hg

theorem startPrint_spits (h : (spitOf s).channels ≠ []) : startPrint s = spitting n s := by
  rw [startPrint_begins hj hl hh hg, if_neg h]

/-- The first stroke starts at once where no channel fires (R140). -/
theorem startPrint_strokes {j : Nat} {rest : List Nat} (h : (spitOf s).channels = [])
    (hp : s.shf.plan.strokes = j :: rest) : ∃ k, strokeBegun j n s k ∧ startPrint s = { s with
      ims := printMarked n true s
      shf := { strokeRecord j s with begun := true }
      fdp := { s.fdp with
        spit := none, head := [], spitCounter := (s.fdp.spitCounter + 1) % s.prf.spit.period, stroke := some k } } := by
  obtain ⟨k, started, begun⟩ := completeSpit_begins (s := spitting n s) rfl rfl hp hg
  exact ⟨k, strokeBegun_congr (t := spitting n s) rfl rfl rfl begun,
    by rw [startPrint_begins hj hl hh hg, if_pos h, started]; rfl⟩

/-- What the print's beginning does, spit or not. -/
theorem startPrint_marks : (startPrint s).ims = printMarked n true s ∧ (startPrint s).shf.begun = true ∧
    (startPrint s).shf.plan = s.shf.plan ∧
    (startPrint s).fdp.spitCounter = (s.fdp.spitCounter + 1) % s.prf.spit.period := by
  rw [startPrint_begins hj hl hh hg]
  split
  · obtain ⟨begun, plan, counter⟩ := completeSpit_keepsPrint (spitting n s)
    rw [begun, plan, counter]
    exact ⟨by simp [spitting], rfl, rfl, rfl⟩
  · exact ⟨rfl, rfl, rfl, rfl⟩

end

/-- The values that the spit's drops have, in the terms of the statement (R125, R140). -/
theorem mem_spitOf_values {s : State} {x : Nat} {v : FireValue} : (x, v) ∈ (spitOf s).values ↔
    ∃ ch d r p, (ch, d) ∈ (spitOf s).channels ∧ r < 2 ∧ p < 4800 ∧ x = 9600 * ch + 4800 * r + p ∧
      (nozzleState s.fdp.nozzles x = none ∧ v = .drop 3 ∨ nozzleState s.fdp.nozzles x = some .weak ∧ v = .drop 2) := by
  simp only [mem_spitValues, spitDrop_eq_some, nozzleNumber_eq]
  rfl

/-- Settles O52: PRINT_START is the spit, or by `completeSpit` the first stroke, on which the spit's completion calls
too. -/
theorem printSteps : Obligations.PrintSteps := by
  refine ⟨fun s => ?_, fun s => ⟨fun h => settled (completeSpit_stays h), fun n j rest hj hs hp hi hc => ?_⟩⟩
  · intro may fires
    have fires_iff : ∀ ch d, fires ch d ↔ (ch, d) ∈ (spitOf s).channels := fun _ _ => mem_spitChannels.symm
    simp only [fires_iff]
    refine ⟨fun h => ?_, fun n g ⟨hj, hl, hh, hi⟩ hc hg => ⟨_, rfl, ?_⟩⟩
    · have stays : startPrint s = s := startPrint_stays <| by
        rcases h with h | h
        · by_cases hi : s.car.index = .none
          · exact .inl fun ⟨hj, hl, hh⟩ => h ⟨hj, hl, hh, hi⟩
          · exact .inr (garmentAt_none (.inl hi))
        · exact .inr (garmentAt_none (.inr h))
      have sent := transmit_sent (startPrint s)
      rw [stays] at sent
      exact ⟨_, rfl, by rwa [stays]⟩
    · have at_ := garmentAt_some hi hc
      have frame : Touches [.lnk, .ims, .shf, .fdp] s (startPrint s) := .step (.refl _ s) (startPrint_frame s) rfl
      obtain ⟨ims, begun, plan, counter⟩ := startPrint_marks hj hl hh at_
      simp only [transmit_keeps, startPrint_nozzles]
      refine ⟨frame.restored_print, counter, trivial, begun, plan, fun h => ?_, fun id k im h hm => ?_,
        fun ⟨ch, d, h⟩ => ?_, fun h j rest hp => ?_⟩
      · rw [ims, printMarked_none hg true (by simp [h])]
      · rw [ims, printMarked_some hg true h hm]
      · rw [startPrint_spits hj hl hh at_ (List.ne_nil_of_mem h)]
        exact ⟨rfl, _, rfl, rfl, fun _ _ => Iff.rfl, _, rfl, fun _ _ => mem_spitOf_values⟩
      · have none : (spitOf s).channels = [] := List.eq_nil_iff_forall_not_mem.mpr fun c => h c.1 c.2
        obtain ⟨k, begun, started⟩ := startPrint_strokes hj hl hh at_ none hp
        rw [started]
        exact ⟨rfl, rfl, rfl, k, rfl, begun⟩
  · obtain ⟨k, completed, begun⟩ := completeSpit_begins hj hs hp (garmentAt_some hi hc)
    have onward := settle_onward (completeSpit s)
    rw [completed] at onward
    obtain ⟨shf, fdp, -⟩ := onward.noPrint (show PrintJob.stroke ≠ .waiting by decide)
    refine ⟨_, k, rfl, ?_, ?_, ?_, begun⟩
    · rw [completed, shf, fdp]; exact onward
    · rw [completed, shf]
    · rw [completed, fdp]

end Sys2Proof.Machine
end

section
/-!
SUPPORT. What an event leaves of the stations and the garments once the waiting conditions have gone on, and the end and
the abort of a print at PRINT (R66, R110, R120, R141).
-/

namespace Sys2Proof.Machine

/-! ### Stations, garments and the print after an event -/

theorem Onward.garment_eq {u t : State} (h : Onward u t) (n : Nat) : garment n t = garment n u :=
  (congrArg (fun c : Car => tabGet n c.garments) h.car :)

theorem Onward.station_eq {u t : State} (h : Onward u t) (st : Station) : station st t = station st u := by
  cases st
  · exact (congrArg Car.load h.car :)
  · exact (congrArg Car.pretreat h.car :)
  · exact (congrArg Car.flash h.car :)
  · exact (congrArg Car.print h.car :)
  · exact (congrArg Car.unload h.car :)

theorem Onward.platens_eq {u t : State} (h : Onward u t) : t.car.platens = u.car.platens :=
  (congrArg Car.platens h.car :)

theorem garment_regarment (m n : Nat) (f : Garment → Garment) (s : State) :
    garment m (regarment n f s) = if m = n then (garment m s).map f else garment m s :=
  tabGet_tabMap n m f s.car.garments

theorem regarment_regarment (n : Nat) (f h : Garment → Garment) (s : State) :
    regarment n f (regarment n h s) = regarment n (fun g => f (h g)) s := by
  simp only [regarment, tabMap_tabMap]

theorem regarment_self (n : Nat) (s : State) : regarment n (fun g => g) s = s := by
  simp [regarment, tabMap_eq_map]

/-- A change that keeps the image a garment names. -/
theorem regarment_image {f : Garment → Garment} (hf : ∀ g, (f g).image = g.image) (m n : Nat) (s : State) :
    (garment m (regarment n f s)).bind Garment.image = (garment m s).bind Garment.image := by
  rw [garment_regarment]
  split
  · simp [Option.bind_map, hf]
  · rfl

theorem garmentAt_congr {s t : State} (h : t.car = s.car) (st : Station) : garmentAt st t = garmentAt st s := by
  simp only [garmentAt, contentsAt, h]

theorem setHold_print_car (h : Hold) (s : State) :
    (setHold .print h s).car = { s.car with print := { s.car.print with hold := h } } := by
  unfold setHold
  split
  · next same => exact same ▸ rfl
  · rfl

/-- An onset beside changes of IMS, SHF and FDP. -/
theorem alarmed_withPrint (i : Nat) (f : Alarm → Alarm) (ims : Ims) (shf : Shf) (fdp : Fdp) (s : State) :
    { alarmed i f s with ims := ims, shf := shf, fdp := fdp } =
      alarmed i f { s with ims := ims, shf := shf, fdp := fdp } := by
  have same : masked i { s with ims := ims, shf := shf, fdp := fdp } = masked i s := rfl
  unfold alarmed
  rw [same]
  by_cases hm : masked i s = true <;> simp only [hm] <;> rfl

/-! ### The end of a print (R66, R110) -/

section
variable {n : Nat} {g : Garment} {s : State} (hg : garment n s = some g)
include hg

theorem returnImageRef_none (h : g.image = none ∨ beforePrinted g = false) : returnImageRef n s = s := by
  rcases h with h | h <;> cases hi : g.image <;> simp_all [returnImageRef]

theorem returnImageRef_some {id k : Nat} {im : Image} (hi : g.image = some id) (hb : beforePrinted g = true)
    (hm : imageOf id s = some (k, im)) : returnImageRef n s = { s with ims := { s.ims with
      images := tabMap k (fun i => { i with garmentRefs := i.garmentRefs - 1 }) s.ims.images } } := by
  simp [returnImageRef, hg, hi, hb, withImageId, hm, withImage, State.withIms]

end

/-- The end of a print, `u` being what the return of the image reference makes of the state. -/
theorem finishPrint_of {n : Nat} {s u : State} (h : returnImageRef n { s with
      shf := { s.shf with job := .none, plan := .none, begun := false, stroke := 0 } } = u) :
    finishPrint n s = freed .print (regarment n (fun g => { g with stage := .printed }) u) :=
  h ▸ release_eq .print _

/-! ### The record of a stroke, and the abort of a print (R119, R120, R141) -/

/-- The record of the running stroke, where one runs, is added to those of garment `n`. -/
theorem writeRecord_eq (n : Nat) (aborted : Bool) (s : State) : writeRecord n aborted s = regarment n (fun g => { g with
    strokes := g.strokes ++ (s.fdp.stroke.map fun k => { abortedRecord k s with aborted := aborted }).toList }) s := by
  unfold writeRecord
  cases s.fdp.stroke with
  | none => simpa using (regarment_self n s).symm
  | some k => rfl

theorem printInProgress_iff (s : State) : printInProgress s = true ↔ InPrint s := by
  unfold printInProgress InPrint
  split <;> simp_all

/-- A garment's record once its print is aborted: PRINT_ABORTED, and the record of a running stroke. -/
def printAbortedOn (s : State) (g : Garment) : Garment :=
  { g with
    defects := addTo .printAborted g.defects
    strokes := g.strokes ++ (s.fdp.stroke.map fun k => abortedRecord k s).toList }

/-- `s` where the print of garment `n` is aborted: its record, Print active cleared, and nothing sent to the heads any
more. -/
def printCut (n : Nat) (s : State) : State :=
  regarment n (printAbortedOn s) { s with
    ims := printMarked n false s
    shf := { s.shf with stroke := 0, plan := { s.shf.plan with strokes := [] } }
    fdp := { s.fdp with stroke := none, spit := none, head := [] } }

theorem abortPrint_eq {n : Nat} {s : State} (hg : garmentAt .print s = some n) : abortPrint s = printCut n s := by
  have recorded : writeRecord n true (addDefect n .printAborted s) = regarment n (printAbortedOn s) s := by
    rw [writeRecord_eq]
    exact regarment_regarment n _ _ s
  have image : (garment n (clearHead (dropStrokeState (regarment n (printAbortedOn s) s)))).bind Garment.image =
      (garment n s).bind Garment.image := regarment_image (f := printAbortedOn s) (fun _ => rfl) n n s
  have marked : printMarked n false (clearHead (dropStrokeState (regarment n (printAbortedOn s) s))) =
      printMarked n false s := printMarked_congr (by rfl) image false
  simp only [abortPrint, hg, recorded, setPrintActive_eq, marked]
  rfl

end Sys2Proof.Machine
end

section
/-!
O53. HOME_SENSOR and NO_SIGNAL_EXPIRY, one lemma per operation and branch (R107, R108, R110, R119 to R122, R141).
-/

namespace Sys2Proof.Machine

/-! ### HOME_SENSOR (R107, R108, R110, R121, R122) -/

/-- `s` with the shuttle HOME at the end of a homing or a return. -/
def homed (s : State) : State := { s with shf := { s.shf with pos := 0, shuttle := .home, noSignal := none } }

theorem homeReport_stays {s : State} (h : ¬ (s.shf.shuttle = .homing ∨ s.shf.shuttle = .return_)) :
    homeReport s = { s with shf := { s.shf with pos := 0 } } := by
  cases hs : s.shf.shuttle <;> simp_all [homeReport, State.withShf]

section
variable {s : State} (hm : s.shf.shuttle = .homing ∨ s.shf.shuttle = .return_)
include hm

theorem homeReport_arrives : homeReport s = arriveHome { s with shf := { s.shf with pos := 0 } } := by
  rcases hm with h | h <;> simp [homeReport, State.withShf, h]

theorem homeReport_idle (h : s.shf.job = .none ∨ s.shf.job = .waiting ∨ garmentAt .print s = none) :
    homeReport s = homed s := by
  have place : garmentAt .print (homed s) = garmentAt .print s := rfl
  rw [homeReport_arrives hm]
  unfold arriveHome
  dsimp only
  split
  next n hj hg => simp_all [homed, State.withShf]
  next n hj hg => simp_all [homed, State.withShf]
  next n hj hg => simp_all [homed, State.withShf]
  next => rfl

theorem homeReport_strokes {n j : Nat} {rest : List Nat} (hj : s.shf.job = .return_)
    (hp : s.shf.plan.strokes = j :: rest) (hg : garmentAt .print s = some n) :
    homeReport s = startStroke (homed s) := by
  have place : garmentAt .print (homed s) = some n := hg
  simp_all [homeReport_arrives, arriveHome, homed, State.withShf]

theorem homeReport_finishes {n : Nat} (hj : (s.shf.job = .return_ ∧ s.shf.plan.strokes = []) ∨ s.shf.job = .held ∨
    s.shf.job = .cut) (hg : garmentAt .print s = some n) : homeReport s = finishPrint n (homed s) := by
  have place : garmentAt .print (homed s) = some n := hg
  rcases hj with ⟨hj, hp⟩ | hj | hj <;> simp_all [homeReport_arrives, arriveHome, homed, State.withShf]

end

/-! ### NO_SIGNAL_EXPIRY (R120, R141) -/

/-- `s` where the shuttle has stopped with one onset of ENCODER (R120). -/
def signalLost (s : State) : State :=
  alarmed 3 Alarm.passed { s with shf := { s.shf with shuttle := .stopped, noSignal := none } }

/-- `s` with the garment at PRINT held by ENCODER, where the station still works (R120). -/
def encoderHeld (s : State) : State :=
  if s.car.print.working = true then setHold .print .encoder { s with shf := { s.shf with job := .held } } else s

theorem alarmed_passed_frame (i : Nat) (s : State) : Touches [.lnk, .alm] s (alarmed i Alarm.passed s) :=
  onset_mom i s ▸ onset_frame i true s

theorem signalLost_frame (s : State) : Touches [.lnk, .shf, .alm] s (signalLost s) :=
  ((Touches.refl _ s).step (stopShuttle_frame s) rfl).step (alarmed_passed_frame 3 _) rfl

theorem signalLost_shf (s : State) :
    (signalLost s).shf = { s.shf with shuttle := .stopped, noSignal := none } :=
  (alarmed_passed_frame 3 _).shf rfl

theorem signalLost_inPrint (s : State) : InPrint (signalLost s) ↔ InPrint s := by
  simp only [InPrint, signalLost_shf]

theorem garmentAt_signalLost (st : Station) (s : State) : garmentAt st (signalLost s) = garmentAt st s :=
  garmentAt_congr ((signalLost_frame s).car rfl) st

theorem alarm_signalLost {s : State} (h : 3 < s.alm.alarms.length) (i : Nat) :
    alarm i (signalLost s) = if i = 3 then (alarm 3 s).passed else alarm i s := by
  rw [signalLost, ← onset_mom, alarm_onset 3 i true _ (by exact h), satAdd_count]
  rfl

theorem loseSignal_still {s : State} (h : s.shf.noSignal = none) : loseSignal s = s := by
  simp [loseSignal, h]

section
variable {s : State} (hs : s.shf.noSignal.isSome = true)
include hs

theorem loseSignal_running : loseSignal s =
    let t := if printInProgress (signalLost s) then abortPrint (signalLost s) else signalLost s
    match garmentAt .print t with
    | some _ => encoderHeld t
    | none => t := by
  rw [loseSignal, if_pos hs, signalLost, ← onset_mom]
  rfl

theorem loseSignal_bare (hg : garmentAt .print s = none) : loseSignal s = signalLost s := by
  have bare : garmentAt .print (signalLost s) = none := by rw [garmentAt_signalLost, hg]
  have same : abortPrint (signalLost s) = signalLost s := by simp only [abortPrint, bare]
  simp only [loseSignal_running hs, same, ite_self, bare]

theorem loseSignal_holds {n : Nat} (hg : garmentAt .print s = some n) (hp : ¬ InPrint s) :
    loseSignal s = encoderHeld (signalLost s) := by
  have place : garmentAt .print (signalLost s) = some n := by rw [garmentAt_signalLost, hg]
  have idle : ¬ printInProgress (signalLost s) = true := by rwa [printInProgress_iff, signalLost_inPrint]
  simp only [loseSignal_running hs, if_neg idle, place]

theorem loseSignal_aborts {n : Nat} (hg : garmentAt .print s = some n) (hp : InPrint s) :
    loseSignal s = encoderHeld (printCut n (signalLost s)) := by
  have place : garmentAt .print (signalLost s) = some n := by rw [garmentAt_signalLost, hg]
  have running : printInProgress (signalLost s) = true := by rwa [printInProgress_iff, signalLost_inPrint]
  have after : garmentAt .print (printCut n (signalLost s)) = some n := place
  simp only [loseSignal_running hs, if_pos running, abortPrint_eq place, after]

end

/-- IMS after the abort, whatever the onset has appended. -/
theorem printMarked_signalLost (n : Nat) (s : State) : printMarked n false (signalLost s) = printMarked n false s :=
  printMarked_congr ((signalLost_frame s).ims rfl) (by rw [garment, (signalLost_frame s).car rfl, ← garment]) false

theorem encoderHeld_frame (s : State) : Touches [.lnk, .car, .shf] s (encoderHeld s) := by
  unfold encoderHeld
  split
  · exact ((Touches.refl _ s).step (State.withShf_frame (fun f => { f with job := .held }) s) rfl).step
      (setHold_frame .print .encoder _) rfl
  · exact .refl _ s

theorem encoderHeld_car (s : State) : (encoderHeld s).car = { s.car with print :=
    if s.car.print.working = true then { working := true, hold := .encoder } else s.car.print } := by
  unfold encoderHeld
  split
  · next works => simp only [setHold_print_car, works]
  · rfl

theorem encoderHeld_shf (s : State) :
    (encoderHeld s).shf = { s.shf with job := if s.car.print.working = true then .held else s.shf.job } := by
  unfold encoderHeld
  split
  · exact (setHold_frame .print .encoder _).shf rfl
  · rfl

/-- A spit, or a return before a further stroke, aborted by the lost signal: no record, and the rest beside the onset. -/
theorem printCut_noStroke {n : Nat} {s : State} (hk : s.fdp.stroke = none) : printCut n (signalLost s) =
    regarment n (fun g => { g with defects := addTo .printAborted g.defects }) (alarmed 3 Alarm.passed { s with
      ims := printMarked n false s
      shf := { s.shf with
        shuttle := .stopped, noSignal := none, stroke := 0, plan := { s.shf.plan with strokes := [] } }
      fdp := { s.fdp with spit := none, head := [] } }) := by
  have fdp : (signalLost s).fdp = s.fdp := (signalLost_frame s).fdp rfl
  have none_ : ({ s.fdp with spit := none, head := [] } : Fdp) = { s.fdp with stroke := none, spit := none, head := [] } := by
    rw [← hk]
  have change : printAbortedOn (signalLost s) = fun g => { g with defects := addTo .printAborted g.defects } :=
    funext fun g => by simp [printAbortedOn, fdp, hk]
  rw [printCut, change, fdp, signalLost_shf, printMarked_signalLost, none_]
  exact congrArg (regarment n _) (alarmed_withPrint 3 Alarm.passed _ _ _ _)

/-- The record of a running stroke is the same before and after the shuttle has stopped. -/
theorem printAbortedOn_signalLost (s : State) : printAbortedOn (signalLost s) = printAbortedOn s := by
  funext g
  simp only [printAbortedOn, (signalLost_frame s).fdp rfl, abortedRecord, signalLost_shf]

/-- The machine after a print that the lost signal aborts, block by block (R120, R141). -/
theorem lostPrint_blocks (n : Nat) (s : State) : let t := encoderHeld (printCut n (signalLost s))
    t.car = { s.car with
      garments := tabMap n (printAbortedOn s) s.car.garments
      print := if s.car.print.working = true then { working := true, hold := .encoder } else s.car.print } ∧
    t.shf = { s.shf with
      shuttle := .stopped, noSignal := none, job := if s.car.print.working = true then .held else s.shf.job
      stroke := 0, plan := { s.shf.plan with strokes := [] } } ∧
    t.fdp = { s.fdp with stroke := none, spit := none, head := [] } ∧ t.ims = printMarked n false s ∧
    t.alm = (signalLost s).alm := by
  have frame := encoderHeld_frame (printCut n (signalLost s))
  have car := (signalLost_frame s).car rfl
  refine ⟨?_, ?_, ?_, ?_, frame.alm rfl⟩
  · rw [encoderHeld_car, printCut, regarment, printAbortedOn_signalLost]
    simp only [car]
  · rw [encoderHeld_shf, printCut, regarment]
    simp only [car, signalLost_shf]
  · rw [frame.fdp rfl, ← (signalLost_frame s).fdp rfl]
    rfl
  · rw [frame.ims rfl, ← printMarked_signalLost]
    rfl

/-- Settles O53: HOME_SENSOR by what ends at HOME, the lost signal by whether a print is in progress; of an aborted stroke
each block is given by `lostPrint_blocks`. -/
theorem shuttleHomeAndSignal : Obligations.ShuttleHomeAndSignal := by
  refine ⟨fun s => ?_, fun s => ?_⟩
  · intro moving home
    refine ⟨fun h => settled (homeReport_stays h), fun hm h => settled (homeReport_idle hm ?_),
      fun n j rest hm hj hp hi hc => ?_, fun n g hm hj hi hc hg => ?_⟩
    · exact h.imp_right fun h => h.imp_right garmentAt_none
    · obtain ⟨k, started, begun⟩ := startStroke_begins (s := homed s) hp (garmentAt_some hi hc)
      have onward := settle_onward (homeReport s)
      rw [homeReport_strokes hm hj hp (garmentAt_some hi hc), started] at onward
      obtain ⟨shf, fdp, -⟩ := onward.noPrint (show PrintJob.stroke ≠ .waiting by decide)
      refine ⟨_, k, rfl, ?_, ?_, ?_, begun⟩
      all_goals rw [homeReport_strokes hm hj hp (garmentAt_some hi hc), started]
      · rw [shf, fdp]; exact onward
      · rw [shf]; rfl
      · rw [fdp]; rfl
    · intro done
      have finishes := homeReport_finishes hm hj (garmentAt_some hi hc)
      exact ⟨fun h => settled (finishes.trans (finishPrint_of (returnImageRef_none hg h))),
        fun id k im h hb himg => settled (finishes.trans (finishPrint_of
          (returnImageRef_some (by exact hg) h hb (by exact himg))))⟩
  · intro u
    refine ⟨fun h => settled (loseSignal_still h), fun hs h => settled (loseSignal_bare hs (garmentAt_none h)),
      fun n g hs hi hc hg => ?_⟩
    intro works held aborted
    have at_ := garmentAt_some hi hc
    have heldBy : ∀ v, v.car.print = s.car.print → encoderHeld v = held v := fun v h => by
      simp only [encoderHeld, held, works, h]
    have onset_print : ∀ v : State, (alarmed 3 Alarm.passed v).car.print = v.car.print := fun v =>
      congrArg Car.print ((alarmed_passed_frame 3 v).car rfl)
    have aborts : ∀ images, printMarked n false s = { s.ims with images := images } → aborted images := by
      refine fun images marked => ⟨fun hp hk _ => ?_, fun k hp hk shaped => ?_⟩
      · refine settled ((loseSignal_aborts hs at_ (hp.imp_right .inr)).trans ?_)
        rw [printCut_noStroke hk, marked]
        exact heldBy _ (onset_print _)
      · have lost := loseSignal_aborts hs at_ (.inr (.inl hp))
        obtain ⟨t, next, onward⟩ := settled lost
        have frame := loseSignal_frame s
        rw [lost] at frame
        obtain ⟨car, shf, fdp, ims, alm⟩ := lostPrint_blocks n s
        obtain ⟨-, -, -, -, -, -, listed, -⟩ := shaped
        have print : t.shf = _ ∧ t.fdp = _ ∧ t.ims = _ := onward.noPrint (by
          rw [shf, hp]; dsimp only; split <;> decide)
        rw [shf, fdp, ims, marked] at print
        obtain ⟨tshf, tfdp, tims⟩ := print
        have garments : ∀ m, garment m t = if m = n then (garment m s).map (printAbortedOn s) else garment m s := fun m => by
          rw [onward.garment_eq, garment, car]
          exact tabGet_tabMap n m _ _
        have alarms : ∀ i, alarm i t = if i = 3 then (alarm 3 s).passed else alarm i s := fun i => by
          rw [← alarm_signalLost (by omega), alarm, onward.alm, alm, ← alarm]
        refine ⟨t, next, by rw [alarms, if_pos rfl], ?_, ?_, tfdp, ?_, tims, onward.ord.trans (frame.ord rfl),
          onward.prf.trans (frame.prf rfl), onward.ctc.trans (frame.ctc rfl), onward.exs.trans (frame.exs rfl),
          onward.pins.trans (frame.pins rfl), ?_, fun m hm => by rw [garments, if_neg hm],
          fun i hi => by rw [alarms, if_neg hi]⟩
        · rw [garments, if_pos rfl, hg]
          simp [printAbortedOn, hk, abortedRecord]
        · rw [tshf, hp]
        · rw [onward.station_eq]
          exact congrArg Car.print car
        · exact onward.platens_eq.trans (congrArg Car.platens car :)
    refine ⟨fun h => settled ((loseSignal_holds hs at_ fun running => ?_).trans ?_), fun h => aborts _ ?_,
      fun id k im h hm => aborts _ ?_⟩
    · rcases running with r | r | ⟨r, hp⟩ <;> simp_all
    · exact heldBy _ (onset_print _)
    · exact printMarked_none hg false h
    · exact printMarked_some hg false h hm

end Sys2Proof.Machine
end

section
/-!
SUPPORT. What a page read neither looks at nor changes: the record of SHF and the idle counters. So the reads of a line
may be made before or after these are changed (R129, R137).
-/

namespace Sys2Proof.Machine

/-- `s` with the record of SHF changed by `h`, and the idle counters of the running stroke by `c`, which is given the
interval. -/
def aside (h : Shf → Shf) (c : Nat → List (Nat × Nat) → List (Nat × Nat)) (s : State) : State :=
  { s with
    shf := h s.shf
    fdp := { s.fdp with stroke := s.fdp.stroke.map fun k => { k with idle := c k.interval k.idle } } }

theorem withShf_aside (h : Shf → Shf) (s : State) : s.withShf h = aside h (fun _ l => l) s := by
  have same : s.fdp.stroke.map (fun k => { k with idle := k.idle }) = s.fdp.stroke := Option.map_id'
  rw [aside, same]
  rfl

section
variable (h : Shf → Shf) (c : Nat → List (Nat × Nat) → List (Nat × Nat))

theorem withOrd_aside (f : Ord → Ord) (s : State) : (aside h c s).withOrd f = aside h c (s.withOrd f) := rfl
theorem withImage_aside (slot : Nat) (f : Image → Image) (s : State) :
    withImage slot f (aside h c s) = aside h c (withImage slot f s) := rfl
theorem note_aside (r : Ref) (s : State) : note r (aside h c s) = aside h c (note r s) := rfl

theorem withImageId_aside (id : Nat) (f : Image → Image) (s : State) :
    withImageId id f (aside h c s) = aside h c (withImageId id f s) := by
  have table : imageOf id (aside h c s) = imageOf id s := rfl
  unfold withImageId
  rw [table]
  split <;> rfl

theorem enqueue_aside (seq : Nat) (u : UnitRec) (s : State) :
    enqueue seq u (aside h c s) = aside h c (enqueue seq u s) := by
  have image : unitImage u (aside h c s) = unitImage u s := rfl
  unfold enqueue handRef
  rw [image, withOrd_aside]
  split
  · exact withImageId_aside h c _ _ _
  · rfl

theorem dequeue_aside (seq : Nat) (u : UnitRec) (s : State) :
    dequeue seq u (aside h c s) = aside h c (dequeue seq u s) := by
  have image : unitImage u (aside h c s) = unitImage u s := rfl
  unfold dequeue takeRef
  rw [image, withOrd_aside]
  split
  · exact withImageId_aside h c _ _ _
  · rfl

theorem moveUnit_aside (seq : Nat) (st : UnitState) (s : State) :
    moveUnit seq st (aside h c s) = aside h c (moveUnit seq st s) := by
  have pool : (aside h c s).ord = s.ord := rfl
  unfold moveUnit
  rw [pool]
  split
  · rfl
  · next u _ =>
    have left : (if u.state = .queued then dequeue seq u (aside h c s) else aside h c s) =
        aside h c (if u.state = .queued then dequeue seq u s else s) := by
      rw [dequeue_aside, apply_ite (aside h c)]
    dsimp only
    rw [left, withUnit, withUnit, withOrder, withOrder, withOrd_aside, withOrd_aside, enqueue_aside,
      ← apply_ite (aside h c), note_aside]

theorem imageDamagedReport_aside (id : Nat) (s : State) :
    imageDamagedReport id (aside h c s) = aside h c (imageDamagedReport id s) := by
  refine List.foldl_hom (aside h c) fun t p => ?_
  split
  · rw [if_pos (by assumption), moveUnit_aside]
  · rw [if_neg (by assumption)]

theorem damageImage_aside (slot : Nat) (s : State) :
    damageImage slot (aside h c s) = aside h c (damageImage slot s) := by
  have table : (aside h c s).ims = s.ims := rfl
  unfold damageImage
  rw [table]
  split
  · split
    · rw [withImage_aside, note_aside, imageDamagedReport_aside]
    · rfl
  · rfl

theorem losePage_aside (slot k n : Nat) (s : State) :
    losePage slot k n (aside h c s) = aside h c (losePage slot k n s) := by
  simp only [losePage, onset, noteAlarm, apply_ite (aside h c)]
  rfl

theorem withStroke_read_aside (e : Nat × Nat) (s : State) :
    withStroke (fun k => { k with read := k.read ++ [e] }) (aside h c s) =
      aside h c (withStroke (fun k => { k with read := k.read ++ [e] }) s) := by
  cases hk : s.fdp.stroke <;> simp [withStroke, aside, State.withFdp, hk]

theorem losePlane_aside (serial ch b : Nat) (s : State) :
    losePlane serial ch b (aside h c s) = aside h c (losePlane serial ch b s) := by
  cases hk : s.fdp.stroke <;> simp [losePlane, addDefect, withGarment, State.withCar, withStroke, aside, State.withFdp, hk]

theorem readPlane_aside (serial slot : Nat) (i : Image) (ch b : Nat) (p : State × List ReadResult) :
    readPlane serial slot i ch b (p.map (aside h c) id) = (readPlane serial slot i ch b p).map (aside h c) id := by
  obtain ⟨s, reads⟩ := p
  have table : ∀ u : State, (aside h c u).ims = u.ims := fun _ => rfl
  simp only [readPlane, Prod.map, id, withStroke_read_aside, table]
  split
  · rfl
  · split
    · split
      · rfl
      · rfl
      · rw [losePage_aside, damageImage_aside, losePlane_aside]
    · rw [losePlane_aside]
    · rfl

theorem planesRead_aside (s : State) : planesRead (aside h c s) = planesRead s := by
  simp [planesRead, aside, Function.comp_def]

theorem readBands_aside (serial stroke n : Nat) (p : State × List ReadResult) :
    readBands serial stroke n (p.map (aside h c) id) = (readBands serial stroke n p).map (aside h c) id := by
  obtain ⟨s, reads⟩ := p
  have named : (garment serial (aside h c s)).bind Garment.image = (garment serial s).bind Garment.image := rfl
  have table : ∀ id, imageOf id (aside h c s) = imageOf id s := fun _ => rfl
  unfold readBands
  simp only [Prod.map_fst, named, table]
  split
  · rfl
  · split
    · rfl
    · split
      · rfl
      · refine List.foldl_hom (Prod.map (aside h c) id) fun q ch => ?_
        have same := planesRead_aside h c q.1
        unfold planesRead at same
        simp only [Prod.map_fst, same, readPlane_aside]
        exact (apply_ite _ _ _ _).symm

theorem linesRead_aside (serial stroke : Nat) (lines : List Nat) (p : State × List ReadResult) :
    linesRead serial stroke lines (p.map (aside h c) id) = (linesRead serial stroke lines p).map (aside h c) id :=
  List.foldl_hom (Prod.map (aside h c) id) fun q n => readBands_aside h c serial stroke n q

end

end Sys2Proof.Machine
end

section
/-!
SUPPORT. Line events (R116 to R118, R129, R136, R137): what the page reads of a line leave alone, the field lines that a
forward position reaches, and the line events of several lines at one event.
-/

namespace Sys2Proof.Machine

/-! ### What page reads leave alone (R129) -/

/-- The stroke state but for the band-planes read and lost. -/
def Stroke.unread (k : Stroke) : Stroke := { k with read := [], lost := [] }

/-- `t` is `s` after page reads: the stroke has read and lost band-planes, garments have defects more, and what the heads
are sent, the rest of the stroke and of CAR, and the blocks that no read writes are as they were. -/
structure ReadsMade (s t : State) : Prop where
  frame : Touches [.lnk, .ord, .ims, .car, .fdp, .alm] s t
  head : t.fdp.head = s.fdp.head
  stroke : t.fdp.stroke.map Stroke.unread = s.fdp.stroke.map Stroke.unread
  car : { t.car with garments := s.car.garments } = s.car

theorem ReadsMade.refl (s : State) : ReadsMade s s := ⟨.refl _ s, rfl, rfl, rfl⟩

theorem ReadsMade.trans {s t u : State} (h : ReadsMade s t) (k : ReadsMade t u) : ReadsMade s u where
  frame := h.frame.step k.frame rfl
  head := k.head.trans h.head
  stroke := k.stroke.trans h.stroke
  car := by rw [← h.car, ← k.car]

/-- Reads that write neither the stroke nor CAR. -/
theorem ReadsMade.of_frame {s t : State} (h : Touches [.lnk, .ord, .ims, .alm] s t) : ReadsMade s t where
  frame := (Touches.refl _ s).step h rfl
  head := by rw [h.fdp rfl]
  stroke := by rw [h.fdp rfl]
  car := by rw [h.car rfl]

theorem withStroke_reads {f : Stroke → Stroke} (hf : ∀ k, (f k).unread = k.unread) (s : State) :
    ReadsMade s (withStroke f s) where
  frame := (Touches.refl _ s).step (withStroke_frame f s) rfl
  head := rfl
  stroke := by simp [withStroke, Function.comp_def, hf]
  car := rfl

theorem losePlane_reads (serial ch b : Nat) (s : State) : ReadsMade s (losePlane serial ch b s) :=
  ReadsMade.trans (t := withStroke (fun k => { k with lost := k.lost ++ [(ch, b)] }) s)
    (withStroke_reads (by exact fun _ => rfl) s)
    { frame := (Touches.refl _ _).step (addDefect_frame serial .storeEcc _) rfl, head := rfl, stroke := rfl, car := rfl }

theorem readPlane_reads (serial slot : Nat) (i : Image) (ch b : Nat) (p : State × List ReadResult) :
    ReadsMade p.1 (readPlane serial slot i ch b p).1 := by
  have read : ReadsMade p.1 (withStroke (fun k => { k with read := k.read ++ [(ch, b)] }) p.1) :=
    withStroke_reads (by exact fun _ => rfl) p.1
  simp only [readPlane]
  split
  · exact read
  · split
    · split
      · exact read
      · exact read.trans (.of_frame ((Touches.refl _ _).step (countCorrected_frame _) rfl))
      · exact (read.trans (.of_frame (damagedRead_frame _ _ _ _))).trans (losePlane_reads _ _ _ _)
    · exact read.trans (losePlane_reads _ _ _ _)
    · exact read

theorem readBands_reads (serial stroke n : Nat) (p : State × List ReadResult) :
    ReadsMade p.1 (readBands serial stroke n p).1 := by
  have planes : ∀ (slot b : Nat) (i : Image) (channels : List Nat) (q : State × List ReadResult), ReadsMade q.1
      (channels.foldl (fun q ch => if i.channels.getLsbD ch = true ∧
        ((q.1.fdp.stroke.map Stroke.read).getD []).contains (ch, b) = false then readPlane serial slot i ch b q
        else q) q).1 := by
    intro slot b i channels
    induction channels with
    | nil => exact fun q => .refl q.1
    | cons ch channels ih =>
      intro q
      refine ReadsMade.trans ?_ (ih _)
      dsimp only
      split
      · exact readPlane_reads _ _ _ _ _ _
      · exact .refl q.1
  unfold readBands
  split
  · exact .refl p.1
  · split
    · exact .refl p.1
    · split
      · exact .refl p.1
      · exact planes _ _ _ _ p

theorem linesRead_reads (serial stroke : Nat) (lines : List Nat) (p : State × List ReadResult) :
    ReadsMade p.1 (linesRead serial stroke lines p).1 := by
  induction lines generalizing p with
  | nil => exact .refl p.1
  | cons n lines ih => exact (readBands_reads serial stroke n p).trans (ih _)

theorem ReadsMade.garmentAt_eq {s t : State} (h : ReadsMade s t) (st : Station) : garmentAt st t = garmentAt st s := by
  have index : t.car.index = s.car.index := (congrArg Car.index h.car :)
  have platens : t.car.platens = s.car.platens := (congrArg Car.platens h.car :)
  simp only [garmentAt, contentsAt, index, platens]

/-- The running stroke after page reads. -/
theorem ReadsMade.running {s t : State} (h : ReadsMade s t) {k : Stroke} (hk : s.fdp.stroke = some k) :
    ∃ j, t.fdp.stroke = some j ∧ j.unread = k.unread := by
  have stroke := h.stroke
  rw [hk] at stroke
  exact Option.map_eq_some_iff.mp stroke

/-! ### Lines that fire nothing (R136, R137) -/

/-- Lines that fire nothing, with the stroke's interval, counters and idle counters before them. -/
theorem rested_of {n : Nat} {j k : Stroke} {s : State} (hj : s.fdp.stroke = some j) (h : j.unread = k.unread) :
    Rested n k (restedFor n s) := by
  have interval : j.interval = k.interval := (congrArg Stroke.interval h :)
  have idle : j.idle = k.idle := (congrArg Stroke.idle h :)
  refine ⟨{ j with idle := j.idle.map fun e => (e.1, min j.interval (e.2 + n)) }, by simp only [restedFor, hj, Option.map_some],
    (congrArg Stroke.lostDots h :), (congrArg Stroke.tickles h :), ?_⟩
  rw [← interval, ← idle]

theorem restedFor_restedFor (m n : Nat) (s : State) : restedFor m (restedFor n s) = restedFor (n + m) s := by
  have both : ∀ interval e, min interval (min interval (e + n) + m) = min interval (e + (n + m)) := by omega
  simp [restedFor, Function.comp_def, both]

/-! ### The field lines reached (R107, R116) -/

theorem lineAt_eq_some {count n : Nat} : lineAt count = some n ↔ n < 6240 ∧ count = 3840 + 4 * n := by
  have zero : Config.lineZeroCount = 3840 := rfl
  have lines : Config.fieldLines = 6240 := rfl
  unfold lineAt
  rw [zero, lines]
  split
  · rw [Option.some.injEq]; omega
  · simp only [reduceCtorEq, false_iff]; omega

theorem mem_linesReached {top n : Nat} {s : State} : n ∈ linesReached top s ↔
    n < 6240 ∧ (s.shf.reach < 3840 + 4 * n ∧ 3840 + 4 * n ≤ top) ∧ s.shf.plan.inField s.shf.stroke n = true := by
  simp only [linesReached, List.mem_filter, List.mem_range, Bool.and_eq_true, decide_eq_true_eq]

/-- The field lines of the counts up to `top` that the stroke has not reached, count by count. -/
theorem linesReached_eq (top : Nat) (s : State) : linesReached top s =
    (((List.range (top - s.shf.reach)).map (s.shf.reach + 1 + ·)).filterMap lineAt).filter fun n =>
      s.shf.plan.inField s.shf.stroke n := by
  have below : ∀ l : List Nat, l.Pairwise (· < ·) → (l.filterMap lineAt).Pairwise (· < ·) := fun l =>
    List.Pairwise.filterMap lineAt fun a b h n hn m hm => by
      rw [lineAt_eq_some] at hn hm
      omega
  refine List.Pairwise.eq_of_mem_iff (r := (· < ·)) (List.Pairwise.filter _ List.pairwise_lt_range)
    (List.Pairwise.filter _ (below _ (List.pairwise_lt_range.map _ fun _ _ h => by omega))) fun n => ?_
  rw [mem_linesReached]
  simp only [List.mem_filter, List.mem_filterMap, List.mem_map, List.mem_range, lineAt_eq_some]
  constructor
  · rintro ⟨hn, ⟨above, upTo⟩, field⟩
    exact ⟨⟨3840 + 4 * n, ⟨3840 + 4 * n - (s.shf.reach + 1), by omega, by omega⟩, hn, rfl⟩, field⟩
  · rintro ⟨⟨_, ⟨i, hi, rfl⟩, hn, count⟩, field⟩
    exact ⟨hn, ⟨by omega, by omega⟩, field⟩

/-- The line events of several lines at one event, in their order (R116). -/
def lineEvents (lines : List Nat) (p : State × List ReadResult) : State × List ReadResult :=
  lines.foldl (fun q n => lineEvent n q) p

/-- A line event leaves the stroke's number, plan and motion, and the counts reached. -/
theorem lineEvent_keepsStroke (n : Nat) (p : State × List ReadResult) :
    (lineEvent n p).1.shf.plan = p.1.shf.plan ∧ (lineEvent n p).1.shf.stroke = p.1.shf.stroke ∧
      (lineEvent n p).1.shf.reach = p.1.shf.reach ∧ (lineEvent n p).1.shf.shuttle = p.1.shf.shuttle := by
  unfold lineEvent
  split
  · exact ⟨rfl, rfl, rfl, rfl⟩
  · next m _ =>
    have read := (readBands_reads m p.1.shf.stroke n p).frame.shf rfl
    dsimp only
    split
    · rw [(composeLine_frame _ _ _ _).shf rfl, State.withShf_shf, read]
      exact ⟨rfl, rfl, rfl, rfl⟩
    · rw [restLine, withStroke, State.withFdp_shf, State.withShf_shf, read]
      exact ⟨rfl, rfl, rfl, rfl⟩
    · rw [restLine, withStroke, State.withFdp_shf, State.withShf_shf, read]
      exact ⟨rfl, rfl, rfl, rfl⟩

theorem lineEvent_garmentAt (st : Station) (n : Nat) (p : State × List ReadResult) :
    garmentAt st (lineEvent n p).1 = garmentAt st p.1 := by
  unfold lineEvent
  split
  · rfl
  · next m _ =>
    have read := (readBands_reads m p.1.shf.stroke n p).garmentAt_eq st
    dsimp only
    split
    · rw [garmentAt_congr ((composeLine_frame _ _ _ _).car rfl)]
      exact read
    · exact read
    · exact read

theorem lineEvents_keeps (lines : List Nat) (p : State × List ReadResult) :
    garmentAt .print (lineEvents lines p).1 = garmentAt .print p.1 ∧
      (lineEvents lines p).1.shf.shuttle = p.1.shf.shuttle := by
  induction lines generalizing p with
  | nil => exact ⟨rfl, rfl⟩
  | cons n lines ih =>
    obtain ⟨place, shuttle⟩ := ih (lineEvent n p)
    obtain ⟨-, -, -, kept⟩ := lineEvent_keepsStroke n p
    exact ⟨place.trans (lineEvent_garmentAt .print n p), shuttle.trans kept⟩

/-- Going through the counts makes the line events of the field lines among them. -/
theorem foldl_counts {plan : Plan} {stroke : Nat} {f : State × List ReadResult → Nat → State × List ReadResult}
    (due : ∀ p count n, lineAt count = some n → f p count =
      if p.1.shf.plan.inField p.1.shf.stroke n = true then lineEvent n p else p)
    (notDue : ∀ p count, lineAt count = none → f p count = p) (counts : List Nat) (p : State × List ReadResult)
    (hp : p.1.shf.plan = plan) (hs : p.1.shf.stroke = stroke) :
    counts.foldl f p = lineEvents ((counts.filterMap lineAt).filter fun n => plan.inField stroke n) p := by
  induction counts generalizing p with
  | nil => rfl
  | cons count counts ih =>
    rw [List.foldl_cons]
    cases line : lineAt count with
    | none => rw [notDue p count line, List.filterMap_cons_none line, ih p hp hs]
    | some n =>
      rw [due p count n line, hp, hs, List.filterMap_cons_some line]
      by_cases field : plan.inField stroke n = true
      · obtain ⟨kp, ks, -⟩ := lineEvent_keepsStroke n p
        rw [if_pos field, List.filter_cons_of_pos field, ih _ (kp.trans hp) (ks.trans hs)]
        rfl
      · rw [if_neg field, List.filter_cons_of_neg field, ih p hp hs]

/-- The stroke at its present position, before its end at 28,800 counts (R116). -/
def reached (reads : List ReadResult) (s : State) : State :=
  (lineEvents (linesReached s.shf.pos.toNat s) (clearHead s, reads)).1.withShf fun f =>
    { f with reach := max f.reach s.shf.pos.toNat }

theorem reached_keeps (reads : List ReadResult) (s : State) :
    garmentAt .print (reached reads s) = garmentAt .print s ∧ (reached reads s).shf.shuttle = s.shf.shuttle := by
  rw [reached]
  generalize linesReached s.shf.pos.toNat s = lines
  exact lineEvents_keeps lines (clearHead s, reads)

theorem advanceStroke_eq (reads : List ReadResult) (s : State) : advanceStroke reads s =
    if 28800 ≤ s.shf.pos.toNat then endStroke (reached reads s) else reached reads s := by
  rw [reached, linesReached_eq]
  have lines := foldl_counts (plan := s.shf.plan) (stroke := s.shf.stroke) (f := fun p count => match lineAt count with
      | some n => if p.1.shf.plan.inField p.1.shf.stroke n then lineEvent n p else p
      | none => p) (fun p count n h => by simp only [h]) (fun p count h => by simp only [h])
    ((List.range (s.shf.pos.toNat - s.shf.reach)).map (s.shf.reach + 1 + ·)) (clearHead s, reads) rfl rfl
  rw [← lines]
  rfl

/-! ### The form of a line event (R117, R118) -/

theorem lineForm_congr {s t : State} (hc : t.clock = s.clock) (hf : t.shf.framer = s.shf.framer)
    (hl : t.shf.lastFire = s.shf.lastFire) : lineForm t = lineForm s := by
  simp only [lineForm, hc, hf, hl]

theorem lineForm_blank {s : State} (h : s.shf.framer ≠ .sync) : lineForm s = .blank := if_pos h

theorem lineForm_skip {s : State} (h : s.shf.framer = .sync) (hl : FiredJustNow s) : lineForm s = .skip := by
  obtain ⟨a, last, recent⟩ := hl
  simp only [lineForm, h, last, if_pos recent, ne_eq, not_true, if_false]

theorem lineForm_fire {s : State} (h : s.shf.framer = .sync) (hl : ¬ FiredJustNow s) : lineForm s = .fire := by
  cases last : s.shf.lastFire with
  | none => simp [lineForm, h, last]
  | some a =>
    have late : ¬ s.clock - a < 50 := fun recent => hl ⟨a, last, recent⟩
    simp [lineForm, h, last, late]

/-- SHF's record with `k` more lines of a form counted; FIRE lines are not (R117, R118). -/
def LineForm.tally (form : LineForm) (k : Nat) (f : Shf) : Shf :=
  match form with
  | .fire => f
  | .blank => { f with blanked := min 6240 (f.blanked + k) }
  | .skip => { f with skipped := min 1023 (f.skipped + k) }

section
variable (form : LineForm) (k : Nat) (f : Shf)

theorem tally_framer : (form.tally k f).framer = f.framer := by cases form <;> rfl
theorem tally_lastFire : (form.tally k f).lastFire = f.lastFire := by cases form <;> rfl
theorem tally_stroke : (form.tally k f).stroke = f.stroke := by cases form <;> rfl

theorem tally_tally (j : Nat) : form.tally k (form.tally j f) = form.tally (j + k) f := by
  cases form with
  | fire => rfl
  | blank =>
    have both : min 6240 (min 6240 (f.blanked + j) + k) = min 6240 (f.blanked + (j + k)) := by omega
    simp only [LineForm.tally, both]
  | skip =>
    have both : min 1023 (min 1023 (f.skipped + j) + k) = min 1023 (f.skipped + (j + k)) := by omega
    simp only [LineForm.tally, both]

end

/-! ### Lines of the form BLANK or SKIP (R117, R118, R136, R137) -/

/-- `s` after `k` lines of a form that fires nothing, their page reads apart. -/
def unfired (form : LineForm) (k : Nat) (s : State) : State := { restedFor k s with shf := form.tally k s.shf }

theorem unfired_aside (form : LineForm) (k : Nat) (s : State) : unfired form k s =
    aside (form.tally k) (fun interval l => l.map fun e => (e.1, min interval (e.2 + k))) s := rfl

theorem unfired_unfired (form : LineForm) (j k : Nat) (s : State) :
    unfired form k (unfired form j s) = unfired form (j + k) s := by
  have idle := congrArg State.fdp (restedFor_restedFor k j s)
  simp only [unfired, tally_tally, ← idle]
  rfl

theorem lineForm_unfired (form : LineForm) (k : Nat) (s : State) : lineForm (unfired form k s) = lineForm s :=
  lineForm_congr rfl (tally_framer form k s.shf) (tally_lastFire form k s.shf)

theorem linesRead_unfired (serial stroke : Nat) (lines : List Nat) (form : LineForm) (k : Nat) (s : State)
    (reads : List ReadResult) : linesRead serial stroke lines (unfired form k s, reads) =
      (unfired form k (linesRead serial stroke lines (s, reads)).1, (linesRead serial stroke lines (s, reads)).2) := by
  rw [unfired_aside, unfired_aside]
  exact linesRead_aside _ _ serial stroke lines (s, reads)

theorem linesRead_withShf (serial stroke : Nat) (lines : List Nat) (h : Shf → Shf) (s : State)
    (reads : List ReadResult) : linesRead serial stroke lines (s.withShf h, reads) =
      ((linesRead serial stroke lines (s, reads)).1.withShf h, (linesRead serial stroke lines (s, reads)).2) := by
  rw [withShf_aside, withShf_aside]
  exact linesRead_aside h (fun _ l => l) serial stroke lines (s, reads)

theorem readBands_withShf (serial stroke n : Nat) (h : Shf → Shf) (s : State) (reads : List ReadResult) :
    readBands serial stroke n (s.withShf h, reads) =
      ((readBands serial stroke n (s, reads)).1.withShf h, (readBands serial stroke n (s, reads)).2) :=
  linesRead_withShf serial stroke [n] h s reads

theorem lineForm_readBands (m j n : Nat) (p : State × List ReadResult) :
    lineForm (readBands m j n p).1 = lineForm p.1 := by
  have frame := (readBands_reads m j n p).frame
  exact lineForm_congr frame.clock (by rw [frame.shf rfl]) (by rw [frame.shf rfl])

section
variable {m : Nat} {p : State × List ReadResult} (hg : garmentAt .print p.1 = some m)
include hg

theorem lineEvent_unfired (hf : lineForm p.1 ≠ .fire) (n : Nat) : lineEvent n p =
    (unfired (lineForm p.1) 1 (readBands m p.1.shf.stroke n p).1, (readBands m p.1.shf.stroke n p).2) := by
  simp only [lineEvent, hg, lineForm_readBands]
  cases form : lineForm p.1 with
  | fire => exact absurd form hf
  | blank => simp only [satAdd_eq_min]; rfl
  | skip => simp only [satAdd_eq_min]; rfl

/-- Several lines none of which fires, at one event. -/
theorem lineEvents_unfired (hf : lineForm p.1 ≠ .fire) (n : Nat) (rest : List Nat) : lineEvents (n :: rest) p =
    (unfired (lineForm p.1) (rest.length + 1) (linesRead m p.1.shf.stroke (n :: rest) p).1,
      (linesRead m p.1.shf.stroke (n :: rest) p).2) := by
  induction rest generalizing n p with
  | nil => exact lineEvent_unfired hg hf n
  | cons n' rest ih =>
    have read := readBands_reads m p.1.shf.stroke n p
    have place : garmentAt .print (unfired (lineForm p.1) 1 (readBands m p.1.shf.stroke n p).1) = some m :=
      (read.garmentAt_eq .print).trans hg
    have form : lineForm (unfired (lineForm p.1) 1 (readBands m p.1.shf.stroke n p).1) = lineForm p.1 := by
      rw [lineForm_unfired, lineForm_readBands]
    have stroke : (unfired (lineForm p.1) 1 (readBands m p.1.shf.stroke n p).1).shf.stroke = p.1.shf.stroke := by
      rw [unfired, tally_stroke, read.frame.shf rfl]
    have first : lineEvents (n :: n' :: rest) p = lineEvents (n' :: rest) (lineEvent n p) := rfl
    have others := ih (p := (unfired (lineForm p.1) 1 (readBands m p.1.shf.stroke n p).1,
      (readBands m p.1.shf.stroke n p).2)) place (by rw [form]; exact hf) n'
    rw [first, lineEvent_unfired hg hf, others, form, stroke, linesRead_unfired, unfired_unfired, Nat.add_comm 1]
    rfl

/-! ### Lines of the form FIRE (R118, R136) -/

omit hg in
theorem composeLine_withShf (m j n : Nat) (h : Shf → Shf) (s : State) :
    composeLine m j n (s.withShf h) = (composeLine m j n s).withShf h := by
  have demands : ∀ g k img ch, demand g k img ch n (s.withShf h) = demand g k img ch n s := fun _ _ _ _ => rfl
  have image : ∀ g, printImage g (s.withShf h) = printImage g s := fun _ => rfl
  have record : garment m (s.withShf h) = garment m s := rfl
  simp only [composeLine, State.withShf_fdp, demands, image, record]
  split <;> rfl

/-- A FIRE line: its reads, and the line composed (R136). -/
theorem lineEvent_fires (hf : lineForm p.1 = .fire) (n : Nat) : lineEvent n p =
    ((composeLine m p.1.shf.stroke n (readBands m p.1.shf.stroke n p).1).withShf fun f =>
      { f with lastFire := some p.1.clock }, (readBands m p.1.shf.stroke n p).2) := by
  have clock := (readBands_reads m p.1.shf.stroke n p).frame.clock
  simp only [lineEvent, hg, lineForm_readBands, hf, clock, composeLine_withShf]

/-- Several lines at one event, the first of which fires: those after it are SKIP (R118). -/
theorem lineEvents_fires (hf : lineForm p.1 = .fire) (n n' : Nat) (rest : List Nat) :
    let q := readBands m p.1.shf.stroke n p
    let w := (composeLine m p.1.shf.stroke n q.1).withShf fun f => { f with lastFire := some p.1.clock }
    lineEvents (n :: n' :: rest) p =
      (unfired .skip (rest.length + 1) (linesRead m p.1.shf.stroke (n' :: rest) (w, q.2)).1,
        (linesRead m p.1.shf.stroke (n' :: rest) (w, q.2)).2) := by
  intro q w
  have read := readBands_reads m p.1.shf.stroke n p
  have composed := composeLine_frame m p.1.shf.stroke n q.1
  have place : garmentAt .print w = some m :=
    (garmentAt_congr (composed.car rfl) .print).trans ((read.garmentAt_eq .print).trans hg)
  have sync : p.1.shf.framer = .sync := Classical.not_not.mp fun h => by rw [lineForm_blank h] at hf; cases hf
  have shf : w.shf = { p.1.shf with lastFire := some p.1.clock } := by
    rw [State.withShf_shf, composed.shf rfl, read.frame.shf rfl]
  have clock : w.clock = p.1.clock := composed.clock.trans read.frame.clock
  have form : lineForm w = .skip := lineForm_skip (by rw [shf, sync]) ⟨p.1.clock, by rw [shf], by rw [clock]; omega⟩
  have first : lineEvents (n :: n' :: rest) p = lineEvents (n' :: rest) (lineEvent n p) := rfl
  have stroke : w.shf.stroke = p.1.shf.stroke := by rw [shf]
  rw [first, lineEvent_fires hg hf, lineEvents_unfired place (by rw [form]; decide), form, stroke]

end

/-! ### The lines that a forward position reaches (R116) -/

section
variable {top m : Nat} {f : Shf} {s : State} (hp : f.pos.toNat = top) (hr : f.reach = s.shf.reach)
  (hk : f.stroke = s.shf.stroke) (hl : f.plan = s.shf.plan)
include hr hk hl

theorem linesReached_congr : linesReached top { s with shf := f } = linesReached top s := by
  simp only [linesReached, hr, hk, hl]

include hp

/-- The record of SHF, as judged, beside the state that the lines find. -/
theorem reached_eq (reads : List ReadResult) : reached reads { s with shf := f } =
    (lineEvents (linesReached top s) ((clearHead s).withShf fun _ => f, reads)).1.withShf fun g =>
      { g with reach := max g.reach top } := by
  rw [reached, hp, linesReached_congr hr hk hl]
  rfl

/-- No field line is reached: nothing is sent, and the position alone is noted. -/
theorem reached_none (h : linesReached top s = []) (reads : List ReadResult) : reached reads { s with shf := f } =
    { s with
      shf := { f with reach := max s.shf.reach top }
      fdp := { s.fdp with head := [] } } := by
  rw [reached_eq hp hr hk hl, h, ← hr]
  rfl

variable {n : Nat} {rest : List Nat} (hg : garmentAt .print s = some m) (h : linesReached top s = n :: rest)
include hg h

/-- Field lines are reached that fire nothing: their page reads, and the lines counted. -/
theorem reached_unfired (hf : lineForm { s with shf := f } ≠ .fire) (reads : List ReadResult) :
    reached reads { s with shf := f } =
      { restedFor (rest.length + 1) (linesRead m s.shf.stroke (n :: rest) (clearHead s, reads)).1 with
        shf := { (lineForm { s with shf := f }).tally (rest.length + 1) f with reach := max s.shf.reach top } } := by
  have events := lineEvents_unfired (p := ((clearHead s).withShf fun _ => f, reads)) hg hf n rest
  have stroke : ((clearHead s).withShf fun _ => f).shf.stroke = s.shf.stroke := hk
  have reach : ∀ k, ((lineForm { s with shf := f }).tally k f).reach = s.shf.reach := fun k => by
    rw [← hr]; cases lineForm { s with shf := f } <;> rfl
  rw [reached_eq hp hr hk hl, h, events, stroke, linesRead_withShf, ← reach (rest.length + 1)]
  rfl

/-- One field line is reached, and fires. -/
theorem reached_fires_one (hf : lineForm { s with shf := f } = .fire) (hrest : rest = []) (reads : List ReadResult) :
    reached reads { s with shf := f } =
      { composeLine m s.shf.stroke n (readBands m s.shf.stroke n (clearHead s, reads)).1 with
        shf := { f with lastFire := some s.clock, reach := max s.shf.reach top } } := by
  have event := lineEvent_fires (p := ((clearHead s).withShf fun _ => f, reads)) hg hf n
  have stroke : ((clearHead s).withShf fun _ => f).shf.stroke = s.shf.stroke := hk
  have lines : ∀ p, lineEvents [n] p = lineEvent n p := fun _ => rfl
  rw [reached_eq hp hr hk hl, h, hrest, lines, event, stroke, readBands_withShf, composeLine_withShf, ← hr]
  rfl

/-- Several field lines are reached, the first of which fires and the others are SKIP. -/
theorem reached_fires_more (hf : lineForm { s with shf := f } = .fire) (hrest : rest ≠ []) (reads : List ReadResult) :
    let q := readBands m s.shf.stroke n (clearHead s, reads)
    reached reads { s with shf := f } =
      { restedFor rest.length (linesRead m s.shf.stroke rest (composeLine m s.shf.stroke n q.1, q.2)).1 with
        shf := { f with
          lastFire := some s.clock, skipped := min 1023 (f.skipped + rest.length), reach := max s.shf.reach top } } := by
  intro q
  obtain ⟨n', rest, rfl⟩ := List.exists_cons_of_ne_nil hrest
  have events := lineEvents_fires (p := ((clearHead s).withShf fun _ => f, reads)) hg hf n n' rest
  have stroke : ((clearHead s).withShf fun _ => f).shf.stroke = s.shf.stroke := hk
  rw [stroke, readBands_withShf] at events
  dsimp only at events
  rw [composeLine_withShf, linesRead_withShf, linesRead_withShf] at events
  rw [reached_eq hp hr hk hl, h, events, ← hr]
  rfl

end

end Sys2Proof.Machine
end

section
/-!
SUPPORT. The plan of a garment and its field (R109), the end of a stroke with the defect decision (R110, R119, R142), the
framer (R112 to R115), and the print that does not begin while the shuttle is not HOME.
-/

namespace Sys2Proof.Machine

/-! ### The field (R109) -/

theorem inField_iff {plan : Plan} {k n : Nat} : plan.inField k n = true ↔
    (∃ y h, plan.image = some (y, h) ∧ y ≤ n ∧ n < y + h) ∨
      (k = 2 ∧ ∃ y, plan.mark = some y ∧ y ≤ n ∧ n < y + 32) := by
  rw [Plan.inField, Bool.or_eq_true]
  refine or_congr ?_ ?_
  · cases plan.image <;> simp [Prod.ext_iff, and_assoc]
  · by_cases two : k = 2
    · cases hm : plan.mark <;> simp [Plan.markIn, two, hm]
    · simp [Plan.markIn, two]

/-- The first and the last line of a field lie in it, and every line of it between them. -/
theorem inField_bounds {plan : Plan} {k n : Nat} (tall : ∀ y h, plan.image = some (y, h) → 0 < h)
    (field : plan.inField k n = true) : (plan.bounds k).1 ≤ n ∧ n ≤ (plan.bounds k).2 ∧
      plan.inField k (plan.bounds k).1 = true ∧ plan.inField k (plan.bounds k).2 = true := by
  unfold Plan.inField at *
  unfold Plan.bounds
  cases image : plan.image with
  | none =>
    cases mark : plan.markIn k with
    | none => simp [image, mark] at field
    | some m => simp_all; omega
  | some a =>
    obtain ⟨y, h⟩ := a
    have := tall y h image
    cases mark : plan.markIn k with
    | none => simp_all; omega
    | some m => simp_all; omega

/-! ### The end of a stroke (R110, R119, R142) -/

/-- The defects of garment `g`, whose print is over, after the decision (R142). -/
def decidedDefects (g : Garment) (d : List Defect) : List Defect :=
  let lines := if g.profile.lineLimit < (g.strokes.map fun r => r.skipped + r.blanked).sum then addTo .linesLost d else d
  if g.profile.dotLimit < (g.strokes.map StrokeRec.lostDots).sum then addTo .lostDots lines else lines

theorem decideDefects_eq {n : Nat} {g : Garment} {s : State} (hg : garment n s = some g) :
    decideDefects n s = regarment n (fun h => { h with defects := decidedDefects g h.defects }) s := by
  by_cases lines : g.profile.lineLimit < (g.strokes.map fun r => r.skipped + r.blanked).sum <;>
    by_cases dots : g.profile.dotLimit < (g.strokes.map StrokeRec.lostDots).sum <;>
    simp only [decideDefects, hg, decidedDefects, lines, dots, if_true, if_false]
  · exact regarment_regarment n _ _ s
  · rfl
  · rfl
  · exact (regarment_self n s).symm

/-- A garment's record with the record of the stroke that ends (R119). -/
def strokeAdded (k : Stroke) (v : State) (h : Garment) : Garment :=
  { h with strokes := h.strokes ++ [{ abortedRecord k v with aborted := false }] }

/-- `v` at the end of the running stroke `k`, before the decision: its record on garment `n`, and the shuttle on its
return with a fresh timer (R110, R111, R119). -/
def strokeReturning (n : Nat) (k : Stroke) (v : State) : State :=
  regarment n (strokeAdded k v) { v with
    shf := { v.shf with
      shuttle := .return_, job := .return_, noSignal := some v.clock, stroke := 0
      plan := { v.shf.plan with strokes := v.shf.plan.strokes.tail } }
    fdp := { v.fdp with stroke := none, spit := none } }

section
variable {n : Nat} {g : Garment} {k : Stroke} {v : State} (hp : garmentAt .print v = some n) (hk : v.fdp.stroke = some k)
include hp hk

theorem endStroke_returns : endStroke v = if v.shf.plan.strokes.tail = [] then
    setPrintActive n false (decideDefects n (strokeReturning n k v)) else strokeReturning n k v := by
  have recorded : writeRecord n false v = regarment n (strokeAdded k v) v := by
    rw [writeRecord_eq, hk]
    rfl
  simp only [endStroke, hp, recorded]
  rfl

variable (hg : garment n v = some g)
include hg

theorem endStroke_eq : endStroke v = strokeEnded n g k v := by
  have after : garment n (strokeReturning n k v) = some (strokeAdded k v g) := by
    rw [strokeReturning, garment_regarment, if_pos rfl]
    exact congrArg (Option.map (strokeAdded k v)) hg
  rw [endStroke_returns hp hk]
  by_cases last : v.shf.plan.strokes.tail = []
  · have image : (garment n (decideDefects n (strokeReturning n k v))).bind Garment.image =
        (garment n v).bind Garment.image := by
      rw [decideDefects_eq after, garment_regarment, if_pos rfl, after, hg]
      rfl
    have marked : printMarked n false (decideDefects n (strokeReturning n k v)) = printMarked n false v :=
      printMarked_congr (by rw [decideDefects_ims]; rfl) image false
    rw [if_pos last, setPrintActive_eq, marked, decideDefects_eq after, strokeReturning, regarment_regarment]
    simp only [strokeEnded, last, List.isEmpty_nil, if_true, printMarked, hg, Option.bind_some]
    cases g.image.bind fun id => imageOf id v <;> rfl
  · have more : v.shf.plan.strokes.tail.isEmpty = false := by simpa using last
    rw [if_neg last, strokeReturning, strokeEnded, more]
    rfl

end

/-! ### The framer (R112 to R115) -/

/-- The framer in SYNC: the mark enters the window, and the second bad one in it brings LOS or ACQUIRE (R114, R115). -/
theorem judge_sync {f : Shf} (h : f.framer = .sync) (good : Bool) : judge good f =
    if 2 ≤ (marksAfter good f).count false then
      if f.autoResync = true then { f with framer := .acquire, good := 0, window := marksAfter good f }
      else { f with framer := .los, window := marksAfter good f }
    else { f with window := marksAfter good f } := by
  have window : pushMark f.lossRule.window f.window good = marksAfter good f := by
    cases rule : f.lossRule <;> simp only [pushMark, marksAfter, LossRule.window, rule] <;> rfl
  simp only [judge, h, window]
  rfl

theorem judge_los {f : Shf} (h : f.framer = .los) (good : Bool) : judge good f = f := by
  simp only [judge, h]

/-- The framer in ACQUIRE: the second good mark in succession brings SYNC (R113). -/
theorem judge_acquire {f : Shf} (h : f.framer = .acquire) (good : Bool) : judge good f =
    if good = true then
      if f.good = 0 then { f with good := 1 } else { f with framer := .sync, good := f.good + 1, window := [] }
    else { f with good := 0 } := by
  cases good with
  | false => simp [judge, h]
  | true => by_cases first : f.good = 0 <;> simp [judge, h, first]

theorem judge_marked (good : Bool) (f : Shf) : MarkJudged good f (judge good f) where
  counted h hg h0 := by rw [judge_acquire h, if_pos hg, if_pos h0]
  synced h hg h1 := by rw [judge_acquire h, if_pos hg, if_neg (by omega)]
  broken h hg := by rw [judge_acquire h, if_neg (by simp [hg])]
  kept h few := by rw [judge_sync h, if_neg (by omega)]
  resynced h many auto := by rw [judge_sync h, if_pos many, if_pos auto]
  lost h many auto := by rw [judge_sync h, if_pos many, if_neg (by simp [auto])]
  stays h := judge_los h good

/-- What a judged mark leaves of SHF's record. -/
theorem judge_eq (good : Bool) (f : Shf) : judge good f = { f with
    framer := (judge good f).framer, good := (judge good f).good, window := (judge good f).window } := by
  cases h : f.framer with
  | acquire => rw [judge_acquire h]; split_ifs <;> rfl
  | sync => rw [judge_sync h]; split_ifs <;> rfl
  | los => rw [judge_los h]

/-- The nearest mark is one of the 15 (R112). -/
theorem nearestMark_listed (pos : Int) : ∃ k, 1 ≤ k ∧ k ≤ 15 ∧ nearestMark pos = 1920 * k := by
  refine ⟨clamp 1 15 ((pos.toNat + 960) / 1920), ?_, ?_, rfl⟩ <;> rw [clamp_eq (by decide)] <;> omega

theorem nearestMark_near {pos : Int} {k : Nat} (h1 : 1 ≤ k) (h15 : k ≤ 15) (h : (pos - (1920 * k : Nat)).natAbs ≤ 8) :
    nearestMark pos = 1920 * k := by
  have quotient : (pos.toNat + 960) / 1920 = k := by omega
  have clamped : clamp 1 15 k = k := by rw [clamp_eq (by decide)]; omega
  rw [nearestMark, quotient, clamped]

theorem markGood_iff {pos : Int} {tol : Nat} : markGood pos tol = true ↔ (pos - nearestMark pos).natAbs ≤ tol := by
  simp [markGood]

theorem scaleMarkReport_still {s : State} (h : s.shf.shuttle ≠ .forward) (reads : List ReadResult) :
    scaleMarkReport reads s = s := if_neg h

/-- A mark farther than the tolerance from every mark count: one framing error (R112). -/
theorem scaleMarkReport_bad {s : State} (h : s.shf.shuttle = .forward)
    (off : ∀ k : Nat, 1 ≤ k → k ≤ 15 → s.shf.tol < (s.shf.pos - (1920 * k : Nat)).natAbs) (reads : List ReadResult) :
    scaleMarkReport reads s =
      { s with shf := judge false { s.shf with framing := min 255 (s.shf.framing + 1) } } := by
  obtain ⟨k, h1, h15, nearest⟩ := nearestMark_listed s.shf.pos
  have bad : ¬ markGood s.shf.pos s.shf.tol = true := by
    rw [markGood_iff, nearest]
    exact Nat.not_le.mpr (off k h1 h15)
  rw [scaleMarkReport, if_pos h, if_neg bad]
  simp only [satAdd_eq_min]
  rfl

/-- A mark within the tolerance of mark count 1,920 `k` snaps the position before the lines are reached (R112, R116). -/
theorem scaleMarkReport_good {s : State} {k : Nat} (h : s.shf.shuttle = .forward) (h1 : 1 ≤ k) (h15 : k ≤ 15)
    (small : s.shf.tol ≤ 8) (near : (s.shf.pos - (1920 * k : Nat)).natAbs ≤ s.shf.tol) (reads : List ReadResult) :
    scaleMarkReport reads s =
      advanceStroke reads { s with shf := judge true { s.shf with pos := (1920 * k : Nat) } } := by
  have nearest := nearestMark_near h1 h15 (near.trans small)
  have good : markGood s.shf.pos s.shf.tol = true := by rwa [markGood_iff, nearest]
  rw [scaleMarkReport, if_pos h, if_pos good]
  simp only [State.withShf, nearest]

/-! ### A print does not begin while the shuttle is not HOME (R110) -/

theorem settle_keepsPrint {u : State} (h : u.shf.shuttle ≠ .home) :
    (settle u).shf = u.shf ∧ (settle u).fdp = u.fdp := by
  have stays : startPrint (startTraverse u) = startTraverse u :=
    startPrint_stays (.inl fun ⟨_, _, home⟩ => h (by simpa using home))
  simp [settle, advance, stays]

end Sys2Proof.Machine
end

section
/-!
O54. SHUTTLE_ENCODER_COUNT and SCALE_MARK (R107, R109, R111 to R120, R142).
-/

namespace Sys2Proof.Machine

/-! ### Encoder counts (R107, R111, R116 to R120) -/

/-- SHF's record once a count has moved the position and restarted a running timer (R107, R120). -/
def counted (forward : Bool) (s : State) : Shf :=
  { s.shf with
    pos := if forward then s.shf.pos + 1 else s.shf.pos - 1
    noSignal := if s.shf.noSignal.isSome then some s.clock else none }

theorem encoderCount_still {s : State} (h : s.shf.shuttle ≠ .forward) (forward : Bool) (reads : List ReadResult) :
    encoderCount forward reads s = { s with shf := counted forward s } := if_neg h

theorem encoderCount_forward {s : State} (h : s.shf.shuttle = .forward) (forward : Bool) (reads : List ReadResult) :
    encoderCount forward reads s = if 28800 ≤ (counted forward s).pos.toNat
      then endStroke (reached reads { s with shf := counted forward s })
      else reached reads { s with shf := counted forward s } := by
  rw [← advanceStroke_eq reads { s with shf := counted forward s }]
  exact if_pos h

/-- Nothing is reached by a position that has been reached already. -/
theorem linesReached_behind {top : Nat} {s : State} (h : top ≤ s.shf.reach) : linesReached top s = [] :=
  List.eq_nil_iff_forall_not_mem.mpr fun n hn => by
    obtain ⟨-, above, -⟩ := mem_linesReached.mp hn
    omega

section
variable {p : Nat} {s : State} (h : s.shf.reach = p)
include h

/-- The next count reaches no line where none of the field is due at it. -/
theorem linesReached_next_none
    (off : ∀ n < 6240, 3840 + 4 * n = p + 1 → s.shf.plan.inField s.shf.stroke n = false) :
    linesReached (p + 1) s = [] :=
  List.eq_nil_iff_forall_not_mem.mpr fun n hn => by
    obtain ⟨below, reach, field⟩ := mem_linesReached.mp hn
    rw [off n below (by omega)] at field
    cases field

/-- The next count reaches the one line that is due at it. -/
theorem linesReached_next {n : Nat} (below : n < 6240) (due : 3840 + 4 * n = p + 1)
    (field : s.shf.plan.inField s.shf.stroke n = true) : linesReached (p + 1) s = [n] := by
  have line : lineAt (p + 1) = some n := lineAt_eq_some.mpr ⟨below, due.symm⟩
  have one : p + 1 - p = 1 := by omega
  rw [linesReached_eq, h, one]
  simp [List.range_one, line, field]

end

theorem lineForm_eq_fire {s : State} : lineForm s = .fire ↔ s.shf.framer = .sync ∧ ¬ FiredJustNow s := by
  refine ⟨fun fire => ?_, fun ⟨sync, old⟩ => lineForm_fire sync old⟩
  have sync : s.shf.framer = .sync := not_not.mp fun h => by rw [lineForm_blank h] at fire; cases fire
  exact ⟨sync, fun h => by rw [lineForm_skip sync h] at fire; cases fire⟩

theorem tally_shuttle (form : LineForm) (k : Nat) (f : Shf) : (form.tally k f).shuttle = f.shuttle := by
  cases form <;> rfl

/-! ### Counts of a stroke (R107, R116 to R118) -/

/-- What has been done at an event while the shuttle is not HOME: SHF and FDP stay as it left them. -/
theorem settle_away {X v : State} (h : X = v) (away : v.shf.shuttle ≠ .home) :
    Onward v (settle X) ∧ (settle X).shf = v.shf ∧ (settle X).fdp = v.fdp := by
  subst h
  exact ⟨settle_onward X, settle_keepsPrint away⟩

/-- SHF's record once a forward count has brought the position to `p + 1`, and the lines up to it are reached. -/
def passed (p : Nat) (s : State) : Shf :=
  { s.shf with
    pos := p + 1
    reach := max s.shf.reach (p + 1)
    noSignal := if s.shf.noSignal.isSome then some s.clock else none }

section
variable {p : Nat} {s : State}

theorem count_backward (hp : s.shf.pos = p) (h : s.shf.shuttle = .forward) (behind : s.shf.pos - 1 ≤ s.shf.reach)
    (low : p ≤ 28800) (reads : List ReadResult) :
    encoderCount false reads s = { clearHead s with shf := counted false s } := by
  have pos : (counted false s).pos.toNat = p - 1 := by
    have : (counted false s).pos = s.shf.pos - 1 := rfl
    omega
  have reached := reached_none (f := counted false s) pos rfl rfl rfl
    (linesReached_behind (by omega : p - 1 ≤ s.shf.reach)) reads
  have reach : max s.shf.reach (p - 1) = (counted false s).reach := Nat.max_eq_left (by omega)
  rw [encoderCount_forward h, reached, reach, if_neg (by omega)]
  rfl

variable (hp : s.shf.pos = p)
include hp

theorem counted_pos : (counted true s).pos.toNat = p + 1 := by
  have : (counted true s).pos = s.shf.pos + 1 := rfl
  omega

theorem counted_passed : { counted true s with reach := max s.shf.reach (p + 1) } = passed p s := by
  rw [passed, ← hp]
  rfl

variable (h : s.shf.shuttle = .forward) (reads : List ReadResult)
include h

theorem count_ends (top : p + 1 = 28800) (line : linesReached (p + 1) s = []) :
    encoderCount true reads s = endStroke { clearHead s with shf := passed p s } := by
  rw [encoderCount_forward h, counted_pos hp, if_pos (by omega),
    reached_none (counted_pos hp) rfl rfl rfl line, counted_passed hp]
  rfl

variable (more : p + 1 < 28800)
include more

theorem count_goesOn : encoderCount true reads s = reached reads { s with shf := counted true s } := by
  rw [encoderCount_forward h, counted_pos hp, if_neg (by omega)]

theorem count_passes (line : linesReached (p + 1) s = []) :
    encoderCount true reads s = { clearHead s with shf := passed p s } := by
  rw [count_goesOn hp h reads more, reached_none (counted_pos hp) rfl rfl rfl line, counted_passed hp]
  rfl

variable {m n : Nat} (hg : garmentAt .print s = some m) (line : linesReached (p + 1) s = [n])
include hg line

theorem count_rests (hf : lineForm s ≠ .fire) : encoderCount true reads s =
    { restedFor 1 (readBands m s.shf.stroke n (clearHead s, reads)).1 with
      shf := (lineForm s).tally 1 (passed p s) } := by
  have form : lineForm { s with shf := counted true s } = lineForm s := lineForm_congr rfl rfl rfl
  rw [count_goesOn hp h reads more, reached_unfired (counted_pos hp) rfl rfl rfl hg line (by rwa [form]), form,
    ← counted_passed hp]
  cases lineForm s <;> rfl

theorem count_fires (hf : lineForm s = .fire) : encoderCount true reads s =
    { composeLine m s.shf.stroke n (readBands m s.shf.stroke n (clearHead s, reads)).1 with
      shf := { passed p s with lastFire := some s.clock } } := by
  have form : lineForm { s with shf := counted true s } = lineForm s := lineForm_congr rfl rfl rfl
  rw [count_goesOn hp h reads more, reached_fires_one (counted_pos hp) rfl rfl rfl hg line (form.trans hf) rfl,
    ← counted_passed hp]

end

/-- FDP after the page reads of lines that fire nothing (R136, R137). -/
theorem linesRead_rested {p : State × List ReadResult} {k : Stroke} (hk : p.1.fdp.stroke = some k)
    (m j c : Nat) (lines : List Nat) : Rested c k (restedFor c (linesRead m j lines p).1) := by
  obtain ⟨i, running, unread⟩ := (linesRead_reads m j lines p).running hk
  exact rested_of running unread

/-- What an encoder count leaves alone, with what has begun after it. -/
theorem settle_count_keeps {forward : Bool} {reads : List ReadResult} {s v : State}
    (onward : Onward v (settle (encoderCount forward reads s))) (car : { v.car with garments := s.car.garments } = s.car) :
    let t := settle (encoderCount forward reads s)
    t.prf = s.prf ∧ t.ctc = s.ctc ∧ t.exs = s.exs ∧ t.pins = s.pins ∧ t.ims.store = s.ims.store ∧
      t.fdp.nozzles = s.fdp.nozzles ∧ t.car.platens = s.car.platens ∧ t.car.line = s.car.line := by
  have platens : v.car.platens = s.car.platens := (congrArg Car.platens car :)
  have line : v.car.line = s.car.line := (congrArg Car.line car :)
  refine ⟨?_, ?_, ?_, ?_, ?_, ?_, onward.platens_eq.trans platens, (congrArg Car.line onward.car :).trans line⟩ <;> simp

/-! ### A good mark (R112, R116) -/

/-- SHF's record once a good mark has snapped the position to 1,920 `k` and the framer has taken it (R112 to R115). -/
def snapped (k : Nat) (s : State) : Shf := judge true { s.shf with pos := (1920 * k : Nat) }

theorem snapped_eq (k : Nat) (s : State) : snapped k s = { s.shf with
    pos := (1920 * k : Nat)
    framer := (snapped k s).framer
    good := (snapped k s).good
    window := (snapped k s).window } := judge_eq true _

theorem snapped_pos (k : Nat) (s : State) : (snapped k s).pos.toNat = 1920 * k :=
  (congrArg (fun f : Shf => f.pos.toNat) (snapped_eq k s) :)
theorem snapped_reach (k : Nat) (s : State) : (snapped k s).reach = s.shf.reach :=
  (congrArg Shf.reach (snapped_eq k s) :)
theorem snapped_stroke (k : Nat) (s : State) : (snapped k s).stroke = s.shf.stroke :=
  (congrArg Shf.stroke (snapped_eq k s) :)
theorem snapped_plan (k : Nat) (s : State) : (snapped k s).plan = s.shf.plan :=
  (congrArg Shf.plan (snapped_eq k s) :)
theorem snapped_shuttle (k : Nat) (s : State) : (snapped k s).shuttle = s.shf.shuttle :=
  (congrArg Shf.shuttle (snapped_eq k s) :)
theorem snapped_blanked (k : Nat) (s : State) : (snapped k s).blanked = s.shf.blanked :=
  (congrArg Shf.blanked (snapped_eq k s) :)
theorem snapped_skipped (k : Nat) (s : State) : (snapped k s).skipped = s.shf.skipped :=
  (congrArg Shf.skipped (snapped_eq k s) :)

theorem snapped_firedJustNow (k : Nat) (s : State) :
    FiredJustNow { s with shf := snapped k s } ↔ FiredJustNow s := by
  have last : (snapped k s).lastFire = s.shf.lastFire := (congrArg Shf.lastFire (snapped_eq k s) :)
  simp only [FiredJustNow, last]

/-- `s` after a good mark at mark count 1,920 `k`, before the end of the stroke. -/
def snap (k : Nat) (reads : List ReadResult) (s : State) : State := reached reads { s with shf := snapped k s }

section
variable {k : Nat} {s : State} (reads : List ReadResult)

theorem snap_garmentAt : garmentAt .print (snap k reads s) = garmentAt .print s :=
  (reached_keeps reads { s with shf := snapped k s }).1

theorem snap_shuttle : (snap k reads s).shf.shuttle = s.shf.shuttle :=
  (reached_keeps reads { s with shf := snapped k s }).2.trans (snapped_shuttle k s)

/-- A good mark: the stroke ends at the last one, 28,800 counts (R111). -/
theorem scaleMarkReport_snap (h : s.shf.shuttle = .forward) (h1 : 1 ≤ k) (h15 : k ≤ 15) (small : s.shf.tol ≤ 8)
    (near : (s.shf.pos - (1920 * k : Nat)).natAbs ≤ s.shf.tol) :
    scaleMarkReport reads s = if k = 15 then endStroke (snap k reads s) else snap k reads s := by
  have last : 28800 ≤ 1920 * k ↔ k = 15 := by omega
  have good :=
    (scaleMarkReport_good h h1 h15 small near reads).trans (advanceStroke_eq reads { s with shf := snapped k s })
  have pos : ({ s with shf := snapped k s } : State).shf.pos.toNat = 1920 * k := snapped_pos k s
  rw [good, pos]
  simp only [last]
  rfl

theorem snap_none (h : linesReached (1920 * k) s = []) : snap k reads s =
    { clearHead s with shf := { snapped k s with reach := max s.shf.reach (1920 * k) } } :=
  reached_none (snapped_pos k s) (snapped_reach k s) (snapped_stroke k s) (snapped_plan k s) h reads

variable {m n : Nat} {rest : List Nat} (hg : garmentAt .print s = some m) (h : linesReached (1920 * k) s = n :: rest)
include hg h

theorem snap_blank (off : (snapped k s).framer ≠ .sync) : snap k reads s =
    { restedFor (rest.length + 1) (linesRead m s.shf.stroke (n :: rest) (clearHead s, reads)).1 with
      shf := { snapped k s with
        blanked := min 6240 (s.shf.blanked + (rest.length + 1)), reach := max s.shf.reach (1920 * k) } } := by
  have form : lineForm { s with shf := snapped k s } = .blank := lineForm_blank off
  rw [snap, reached_unfired (snapped_pos k s) (snapped_reach k s) (snapped_stroke k s) (snapped_plan k s) hg h
    (by rw [form]; decide), form, ← snapped_blanked k s]
  rfl

theorem snap_skip (sync : (snapped k s).framer = .sync) (recent : FiredJustNow s) : snap k reads s =
    { restedFor (rest.length + 1) (linesRead m s.shf.stroke (n :: rest) (clearHead s, reads)).1 with
      shf := { snapped k s with
        skipped := min 1023 (s.shf.skipped + (rest.length + 1)), reach := max s.shf.reach (1920 * k) } } := by
  have form : lineForm { s with shf := snapped k s } = .skip :=
    lineForm_skip sync ((snapped_firedJustNow k s).mpr recent)
  rw [snap, reached_unfired (snapped_pos k s) (snapped_reach k s) (snapped_stroke k s) (snapped_plan k s) hg h
    (by rw [form]; decide), form, ← snapped_skipped k s]
  rfl

/-- Where no line fires, FDP has the page reads and the lines counted, whatever their form. -/
theorem snap_rests (rests : (snapped k s).framer ≠ .sync ∨ FiredJustNow s) : (snap k reads s).fdp =
    (restedFor (rest.length + 1) (linesRead m s.shf.stroke (n :: rest) (clearHead s, reads)).1).fdp := by
  by_cases sync : (snapped k s).framer = .sync
  · exact (congrArg State.fdp (snap_skip reads hg h sync (rests.resolve_left (not_not.mpr sync))) :)
  · exact (congrArg State.fdp (snap_blank reads hg h sync) :)

variable (sync : (snapped k s).framer = .sync) (old : ¬ FiredJustNow s)
include sync old

theorem snap_fires_one (one : rest = []) : snap k reads s =
    { composeLine m s.shf.stroke n (readBands m s.shf.stroke n (clearHead s, reads)).1 with
      shf := { snapped k s with lastFire := some s.clock, reach := max s.shf.reach (1920 * k) } } :=
  reached_fires_one (snapped_pos k s) (snapped_reach k s) (snapped_stroke k s) (snapped_plan k s) hg h
    (lineForm_fire sync (mt (snapped_firedJustNow k s).mp old)) one reads

theorem snap_fires_more (more : rest ≠ []) :
    let q := readBands m s.shf.stroke n (clearHead s, reads)
    snap k reads s =
      { restedFor rest.length (linesRead m s.shf.stroke rest (composeLine m s.shf.stroke n q.1, q.2)).1 with
        shf := { snapped k s with
          lastFire := some s.clock
          skipped := min 1023 (s.shf.skipped + rest.length)
          reach := max s.shf.reach (1920 * k) } } := by
  intro q
  rw [← snapped_skipped k s]
  exact reached_fires_more (snapped_pos k s) (snapped_reach k s) (snapped_stroke k s) (snapped_plan k s) hg h
    (lineForm_fire sync (mt (snapped_firedJustNow k s).mp old)) more reads

/-- What the heads are sent is the first line's, whatever lines follow it. -/
theorem snap_fires_head : (snap k reads s).fdp.head =
    (composeLine m s.shf.stroke n (readBands m s.shf.stroke n (clearHead s, reads)).1).fdp.head := by
  by_cases one : rest = []
  · exact (congrArg (fun t : State => t.fdp.head) (snap_fires_one reads hg h sync old one) :)
  · rw [snap_fires_more reads hg h sync old one]
    exact (linesRead_reads m s.shf.stroke rest _).head

end

/-- The running stroke after a FIRE line keeps its interval. -/
theorem composeLine_running {m j n : Nat} {s : State} {k : Stroke} (hk : s.fdp.stroke = some k) :
    ∃ i, (composeLine m j n s).fdp.stroke = some i ∧ i.interval = k.interval := by
  cases hg : garment m s with
  | none => exact ⟨k, by simp only [composeLine, hg, hk], rfl⟩
  | some g => exact ⟨_, congrArg Fdp.stroke (composeLine_fdp hg hk), rfl⟩

/-- Settles O54: a count and a mark are followed by cases of the lines that they reach, each by the form of its line
events. -/
theorem shuttleMotion : Obligations.ShuttleMotion := by
  refine ⟨fun g s => ⟨?_, ?_, fun i hi => ?_, fun hi => ?_⟩, fun plan k n => ⟨inField_iff, inField_bounds⟩,
    fun forward reads s h => settled (encoderCount_still h forward reads), fun reads s p h hp => ?_, fun reads s =>
    ⟨fun h => settled (scaleMarkReport_still h reads), fun h off => ?_, fun k h h1 h15 small near => ?_⟩⟩
  · unfold planOf; cases printImage g s <;> rfl
  · unfold planOf; cases printImage g s <;> rfl
  · simp only [planOf, hi]
  · simp only [planOf, hi]
  · intro u anew
    have away : ∀ f : Shf, f.shuttle = s.shf.shuttle → f.shuttle ≠ .home := fun f hf => by rw [hf, h]; decide
    refine ⟨fun behind low => ?_, fun low off => ?_, fun n m k hr below due field hi hc hk => ?_,
      fun n g k last hr hi hc hg hk => ?_⟩
    · obtain ⟨onward, -, fdp⟩ := settle_away (count_backward hp h behind low reads) (away _ rfl)
      exact ⟨_, rfl, onward, fdp⟩
    · have none : linesReached (p + 1) s = [] :=
        off.elim linesReached_behind fun ⟨hr, field⟩ => linesReached_next_none hr field
      obtain ⟨onward, -, fdp⟩ := settle_away (count_passes hp h reads low none) (away _ rfl)
      exact ⟨_, rfl, onward, fdp⟩
    · have place := garmentAt_some hi hc
      have line := linesReached_next hr below due field
      have more : p + 1 < 28800 := by omega
      intro read
      have made : ReadsMade anew read := readBands_reads m s.shf.stroke n (clearHead s, reads)
      have rested : ∀ t : State, t.fdp = (restedFor 1 read).fdp → t.fdp.head = [] ∧ Rested 1 k t := fun t fdp => by
        rw [Rested, fdp]
        exact ⟨made.head, linesRead_rested (p := (anew, reads)) hk m s.shf.stroke 1 [n]⟩
      have rests := count_rests hp h reads more place line
      refine ⟨_, rfl, ?_⟩
      by_cases fires : s.shf.framer = .sync ∧ ¬ FiredJustNow s
      · obtain ⟨sync, old⟩ := fires
        have composed := (composeLine_frame m s.shf.stroke n read).car rfl
        have sent := count_fires hp h reads more place line (lineForm_fire sync old)
        obtain ⟨onward, shf, fdp⟩ := settle_away sent (away _ rfl)
        obtain ⟨h1, h2, h3, h4, h5, h6, h7, h8⟩ := settle_count_keeps onward
          ((congrArg (fun c : Car => { c with garments := s.car.garments }) composed :).trans made.car)
        refine ⟨?_, fun no => absurd no (by simp [sync, old]), h1, h2, h3, h4, h5, h6, h7, h8,
          fun _ _ => ⟨onward, fdp⟩⟩
        rw [shf, if_neg (not_not.mpr sync)]
        cases last : s.shf.lastFire with
        | none => rfl
        | some a => exact (if_neg fun recent => old ⟨a, last, recent⟩).symm
      · have form : lineForm s ≠ .fire := fun fire => fires (lineForm_eq_fire.mp fire)
        obtain ⟨onward, shf, fdp⟩ := settle_away (rests form) (away _ (tally_shuttle _ _ _))
        obtain ⟨h1, h2, h3, h4, h5, h6, h7, h8⟩ := settle_count_keeps onward made.car
        refine ⟨?_, fun _ => ⟨?_, fdp, rested _ fdp⟩, h1, h2, h3, h4, h5, h6, h7, h8,
          fun sync old => absurd ⟨sync, old⟩ fires⟩
        · rw [shf]
          by_cases sync : s.shf.framer = .sync
          · have recent : FiredJustNow s := not_not.mp fun old => fires ⟨sync, old⟩
            rw [lineForm_skip sync recent, if_neg (not_not.mpr sync)]
            obtain ⟨a, last, recent⟩ := recent
            simp only [last, if_pos recent]
            rfl
          · rw [lineForm_blank sync, if_pos sync]
            rfl
        · rw [shf]
          exact onward
    · have line : linesReached (p + 1) s = [] := linesReached_next_none hr fun n below due => by omega
      have ended := endStroke_eq (v := { clearHead s with shf := passed p s }) (garmentAt_some hi hc) hk hg
      exact settled ((count_ends hp h reads last line).trans ended)
  · obtain ⟨onward, shf, -⟩ := settle_away (scaleMarkReport_bad h off reads) (by
      rw [judge_eq]; simp [h])
    refine ⟨_, rfl, ?_, ?_⟩
    · rw [shf]; exact onward
    · rw [shf]; exact judge_marked false _
  · intro anew
    have marked : MarkJudged true { s.shf with pos := (1920 * k : Nat) } (snapped k s) := judge_marked true _
    have done := scaleMarkReport_snap reads h h1 h15 small near
    have away : (snap k reads s).shf.shuttle ≠ .home := by rw [snap_shuttle, h]; decide
    refine ⟨snapped k s, snap k reads s, settle (scaleMarkReport reads s), rfl, marked, fun inside => ?_,
      fun m g st last hi hc hg hst => ?_, ⟨snap_none reads, fun m n rest hi hc line => ?_⟩, ?_, ?_, ?_, ?_, ?_⟩
    · exact settle_away (done.trans (if_neg (by omega))) away
    · have place : garmentAt .print (snap k reads s) = some m := (snap_garmentAt reads).trans (garmentAt_some hi hc)
      rw [done, if_pos last, endStroke_eq place hst hg]
      exact settle_onward _
    · have place := garmentAt_some hi hc
      intro unfired
      refine ⟨fun rests => ?_, snap_blank reads place line, snap_skip reads place line, fun sync old => ?_⟩
      · have fdp := snap_rests reads place line rests
        refine ⟨by rw [fdp]; exact (linesRead_reads m s.shf.stroke (n :: rest) (anew, reads)).head, fun st hst => ?_⟩
        rw [Rested, fdp]
        exact linesRead_rested (p := (anew, reads)) hst m s.shf.stroke (rest.length + 1) (n :: rest)
      · intro r w
        refine ⟨snap_fires_head reads place line sync old, snap_fires_one reads place line sync old, fun more => ?_⟩
        have sent := snap_fires_more reads place line sync old more
        refine ⟨sent, fun st hst => ?_⟩
        obtain ⟨i, running, unread⟩ := (readBands_reads m s.shf.stroke n (anew, reads)).running hst
        obtain ⟨j, fired, interval⟩ := composeLine_running (m := m) (j := s.shf.stroke) (n := n) running
        refine ⟨j, fired, interval.trans (congrArg Stroke.interval unread :), ?_⟩
        rw [sent]
        exact linesRead_rested (p := (w, r.2)) fired m s.shf.stroke rest.length rest
    all_goals simp

end Sys2Proof.Machine
end
